-- ==== Sys2Proof/Word.lean ====
section
/-! DEFINITION. The bit-vector types the spec's notation speaks of (00_scope.md rule R6). -/

namespace Sys2Proof

/-- A 32-bit word: a state word, a seed, a raw draw, a host register (rule R6).  `+` and `*` on it
are modulo 2^32, `>>>` is the logical right shift and `<<<` the left shift within 32 bits. -/
abbrev Word := BitVec 32

/-- One byte of the output stream (rule R24). -/
abbrev Byte := BitVec 8

/-- The 64-bit pattern of a binary64 value (rule R95). -/
abbrev DWord := BitVec 64

end Sys2Proof
end

