-- ==== Sys2Proof/Syntax.lean ====
section
/-! DEFINITION. The commands of the core: one constructor per row of spec/opcode_table.json
(30_encoding.md rule R49).  A command word carries no operands (rules R45, R46). -/

namespace Sys2Proof

/-- The eight commands (rule R49).  Operands travel in `ARG0`, `ARG1` and on `TIME_IN`, never in the
command, so no constructor has a field. -/
inductive Instr where
  /-- `SEED`: seeded construction (40_seed.md rule R62). -/
  | seed
  /-- `SEEDT`: no-argument construction from the time source (40_seed.md rule R64). -/
  | seedt
  /-- `CLRERR`: clear the failure flags (44_control.md rule R110). -/
  | clrerr
  /-- `RAW`: raw draw (42_extract.md rule R84). -/
  | raw
  /-- `NEXT`: non-negative signed integer (43_sampling.md rule R91). -/
  | next
  /-- `SAMPLE`: unit-interval double (43_sampling.md rule R93). -/
  | sample
  /-- `RANGE`: bounded range draw (43_sampling.md rule R97). -/
  | range
  /-- `FILL`: byte-buffer fill (43_sampling.md rule R102). -/
  | fill
  deriving DecidableEq, Repr

end Sys2Proof
end

