-- ==== Sys2Proof/WellFormed.lean ====
section
/-! DEFINITION. When a 32-bit word is a command word of format `C` (30_encoding.md rules R45, R50).
A term of `Instr` has no fields, so every one of them is well formed; what can be ill formed is the
word a host writes to `CMD`.  The two checks here are written from the rules' own lists and not from
the decoder, so that the decoder can be compared with them. -/

namespace Sys2Proof

/-- The check on field `ZERO`, bits 31:8: "reserved, must be 0x000000" (rule R45). -/
def zeroFieldClear (w : Word) : Bool := w.toNat / 256 == 0

/-- The eight opcodes of rule R121's list, in its order. -/
def listedOpcodes : List Nat := [0x01, 0x02, 0x03, 0x10, 0x11, 0x12, 0x13, 0x14]

/-- The check on field `OPC`, bits 7:0: it is one of the eight listed values (rules R47, R121). -/
def opcodeListed (w : Word) : Bool := listedOpcodes.contains (w.toNat % 256)

/-- The word selects a command: both checks of rule R47 pass. -/
def wellFormedWord (w : Word) : Bool := zeroFieldClear w && opcodeListed w

end Sys2Proof
end

