-- ==== Sys2Proof/Decode.lean ====
section
/-! DEFINITION. The decoder and the encoder of command words (30_encoding.md rules R45 to R52). -/

namespace Sys2Proof

/-- Why a word selects no command.  Every reason ends in the one cause IllegalCommand (rule R50). -/
inductive IllegalWord where
  /-- Field `ZERO` (bits 31:8) is not zero (rules R45, R47). -/
  | reservedBitsSet
  /-- `OPC` = 0x18, "set aside for the single-argument bounded draw `Next(maxValue)`", illegal today
  (rules R50, R108). -/
  | delegatedNextMaxValue
  /-- `OPC` is none of the eight listed values (rules R47, R50). -/
  | unlistedOpcode
  deriving DecidableEq, Repr

/-- What decoding a word gives: exactly one command, or a reason for having none (rule R47). -/
inductive Decoded where
  | command (i : Instr)
  | illegal (why : IllegalWord)
  deriving DecidableEq, Repr

/-- Field `OPC`, bits 7:0 (rule R45). -/
def fieldOPC (w : Word) : BitVec 8 := w.extractLsb' 0 8

/-- Field `ZERO`, bits 31:8 (rule R45). -/
def fieldZERO (w : Word) : BitVec 24 := w.extractLsb' 8 24

/-- Decoding (rules R47, R49, R50): total on all 2^32 words, and a function of the word alone. -/
def decode (w : Word) : Decoded :=
  if fieldZERO w ≠ 0 then .illegal .reservedBitsSet
  else match fieldOPC w with
    | 0x01#8 => .command .seed
    | 0x02#8 => .command .seedt
    | 0x03#8 => .command .clrerr
    | 0x10#8 => .command .raw
    | 0x11#8 => .command .next
    | 0x12#8 => .command .sample
    | 0x13#8 => .command .range
    | 0x14#8 => .command .fill
    | 0x18#8 => .illegal .delegatedNextMaxValue
    | _ => .illegal .unlistedOpcode

/-- The `OPC` of each command (rule R49). -/
def opcode : Instr → BitVec 8
  | .seed => 0x01#8
  | .seedt => 0x02#8
  | .clrerr => 0x03#8
  | .raw => 0x10#8
  | .next => 0x11#8
  | .sample => 0x12#8
  | .range => 0x13#8
  | .fill => 0x14#8

/-- The word of a command: format `C`, `ZERO` clear, `OPC` the command's (rules R45, R49). -/
def encode (i : Instr) : Word := 0#24 ++ opcode i

/-- The command a word selects, if it selects one (rule R47). -/
def commandOf (w : Word) : Option Instr :=
  match decode w with
  | .command i => some i
  | .illegal _ => none

/-- The command words the opcode table's numbering gives: one 32-bit word, of which `nbits` bits are
taken from `w` and the bits above are zero. -/
def tableWord (nbits w : Nat) : Word := BitVec.ofNat 32 (w % 2 ^ nbits)

/-- What the decoder reads from a word given as spec/opcode_table.json numbers its bits. -/
def decodeTableWord (nbits w : Nat) : Option Instr := commandOf (tableWord nbits w)

end Sys2Proof
end

