-- ==== Sys2Proof/Config.lean ====
section
/-! DEFINITION. The free values: what the spec leaves open and an environment decides.  Each is a
constant with no body, applied to the count of free values drawn so far (`State.freeCount`), so that
every use sees a value of its own and nothing can be proved about which. -/

namespace Sys2Proof

/-- The tick count on the `TIME_IN` port at a sampling (rules R25, R64, R65; 93 U6): "an input drawn
afresh at each SEEDT; not one fixed unknown".  A natural number, so that it stands for a port of any
width `TICKS_W` (rule R5, 92 D15, 93 U9): only its low 32 bits are used.  notes/assumptions/1.md. -/
opaque Config.timeIn : Nat → Nat

/-- What a read of a register returns where the spec calls it unspecified while `BUSY = 1` (rules
R113, R147; 93 U3).  notes/assumptions/4.md. -/
opaque Config.busyRead : Nat → Word

/-- How many bytes a FILL abandoned by `RESET` had emitted (rule R142, 93 U7); the machine bounds it
by the length of the FILL.  notes/assumptions/5.md. -/
opaque Config.abandonedCount : Nat → Nat

/-- Whether an abandoned FILL that had emitted all its bytes had also marked the last one (rule R142:
"the `last` marker may be missing").  notes/assumptions/5.md. -/
opaque Config.abandonedLast : Nat → Bool

end Sys2Proof
end

