-- ==== Sys2Proof/Machine/State.lean ====
section
/-! DEFINITION. The state of the machine as plain data, the reasons a step can stop, and the state
after reset (10_state.md).  The core has no program counter and no data memory (rules R13, R30). -/

namespace Sys2Proof.Machine

/-- The state-vector space (rules R10, R30a): 624 words of 32 bits, "never resized". -/
abbrev StateVector := Vector Word 624

/-- The generator: the state vector and the draw cursor, which "are created together at seeding time"
(rules R10, R11, R12). -/
structure Generator where
  /-- `mt[0..623]` (rule R10). -/
  mt : StateVector
  /-- The draw cursor `idx`, "integer in the closed range [0, 624]" (rule R11; 92 D28). -/
  idx : Fin 625
  deriving DecidableEq, Repr

/-- The fields of `STATUS` (rule R22).  Bits 3 and 31:7 are reserved, read 0 and are not stored. -/
structure Status where
  /-- Bit 0: the mode, 0 UNSEEDED, 1 READY (rule R12). -/
  rdy : Bool
  /-- Bit 1: a command is executing (rule R27). -/
  busy : Bool
  /-- Bit 2: the most recently completed command failed. -/
  fail : Bool
  /-- Bit 4, sticky: some command failed with cause IllegalCommand. -/
  eIllcmd : Bool
  /-- Bit 5, sticky: some command failed with cause Unseeded. -/
  eUnseeded : Bool
  /-- Bit 6, sticky: some command failed with cause RangeOrder. -/
  eRange : Bool
  deriving DecidableEq, Repr

/-- The failure causes (60_exceptions.md rule R120): "the complete list". -/
inductive Cause where
  | illegalCommand
  | unseeded
  | rangeOrder
  deriving DecidableEq, Repr

/-- One element of the `BYTE_OUT` stream (rule R24): a byte, and whether it carries the `last` marker
of its FILL. -/
structure StreamByte where
  data : Byte
  last : Bool
  deriving DecidableEq, Repr

/-- The six host registers (rule R16). -/
inductive HostReg where
  | cmd
  | arg0
  | arg1
  | status
  | resLo
  | resHi
  deriving DecidableEq, Repr

/-- What can happen at the core's boundary, one element per line of the notation of 30_encoding.md
rule R53, and two more for a command that the host does not wait for (rules R113, R142, R146 to
R149).  These are inputs of the machine, not commands of the core. -/
inductive Event where
  /-- `WR reg, value`: the host writes a 32-bit value at a byte offset of the register space.  Written
  to `CMD` it is one command, executed to completion in this one step (92 D1). -/
  | write (offset : Nat) (value : Word)
  /-- `RD reg`: the host reads the 32-bit register at a byte offset. -/
  | read (offset : Nat)
  /-- `RESET`: the reset input is asserted and released. -/
  | reset
  /-- `TIME value`: for the next SEEDT, `TimeIn()` returns this value. -/
  | time (ticks : Nat)
  /-- The host writes a word to `CMD` and does not wait: the command is accepted and stays in
  progress, `BUSY = 1`, until `complete` or a reset. -/
  | accept (word : Word)
  /-- The command in progress completes. -/
  | complete
  deriving DecidableEq, Repr

/-- Why the machine stops without a next state. -/
inductive Fault where
  /-- A draw command met `RDY = 1` with a state vector that holds no value.  Raised by the draw
  commands (`drawCommand`).  The spec has no such state (rule R29) and no run reaches one
  (`Safety.Inv`).  Safe: the machine stops where the spec says nothing. -/
  | noStateVector
  deriving DecidableEq, Repr

/-- What the model has no step for. -/
inductive Refusal where
  /-- An instruction without a meaning yet; raised by no arm of `exec`.  Safe. -/
  | notModelled (mnemonic : String)
  /-- The host wrote `CMD`, `ARG0` or `ARG1` while `BUSY = 1`: "What the core does if the rule is
  broken is not defined; a model has no step for such a write" (rule R148, 93 U2).  Raised by the
  host port (`hostWrite`, `acceptCommand`), never by a command.  Safe. -/
  | writeWhileBusy
  /-- The host accessed an offset that is none of the six: misaligned or beyond 0x17.  "A model refuses
  it (gives it no step)" (rule R36, 93 U5).  Raised by the host port, never by a command.  Safe. -/
  | noSuchRegister (offset : Nat)
  deriving DecidableEq, Repr

/-- The whole state.  The first nine fields are the core's; the last four are the model's own. -/
structure State where
  /-- `mt` and `idx`; `none` while they hold no value (rules R10, R11, R28). -/
  gen : Option Generator
  /-- `STATUS`, offset 0x0C (rule R22). -/
  status : Status
  /-- `ARG0`, offset 0x04 (rule R18). -/
  arg0 : Word
  /-- `ARG1`, offset 0x08 (rule R19). -/
  arg1 : Word
  /-- `RES_LO`, offset 0x10 (rule R20). -/
  resLo : Word
  /-- `RES_HI`, offset 0x14 (rule R21). -/
  resHi : Word
  /-- The `BYTE_OUT` trace `obytes`, oldest byte first (rule R24). -/
  obytes : List StreamByte
  /-- Hidden working state (rule R27): the word of the command in progress, while `BUSY = 1`. -/
  inFlight : Option Word
  /-- Hidden working state (rule R27): the time value a SEEDT in progress took at its acceptance. -/
  timeLatch : Option Nat
  /-- MODEL'S OWN, an input: the value a `TIME` line drives on `TIME_IN` for the next SEEDT
  (rule R53); `none` when the port is not driven. -/
  timeNext : Option Nat
  /-- MODEL'S OWN, an input: what happens at the boundary from here on, soonest first. -/
  events : List Event
  /-- MODEL'S OWN, an output: the values the host has read, oldest first (rule R145). -/
  reads : List (HostReg × Word)
  /-- MODEL'S OWN: how many free values of `Config` have been drawn. -/
  freeCount : Nat
  deriving DecidableEq, Repr

/-- `STATUS` = 0x00000000 (rules R22, R28). -/
def Status.zero : Status :=
  ⟨false, false, false, false, false, false⟩

/-- The state after reset (10_state.md rule R28, 70_reset_and_hazards.md rule R141): UNSEEDED, idle, no
flags, the four registers zero, `mt` and `idx` without a value, the empty trace.  The model's own
fields start empty. -/
def State.reset : State where
  gen := none
  status := Status.zero
  arg0 := 0
  arg1 := 0
  resLo := 0
  resHi := 0
  obytes := []
  inFlight := none
  timeLatch := none
  timeNext := none
  events := []
  reads := []
  freeCount := 0

end Sys2Proof.Machine
end

