-- ==== Sys2Proof/Machine/Constants.lean ====
section
/-! DEFINITION. The fixed constants of the algorithm (00_scope.md rule R4, 10_state.md rule R15):
"fixed, shared, read-only", neither state nor parameters.  `N` = 624 is the length in `StateVector`, `M` = 397
stands in `twistStep`, and the shift amounts stand in `seedNext`, `twistWord` and `temper`. -/

namespace Sys2Proof.Machine

/-- `UPPER`, bit 31 (rule R4). -/
def upperMask : Word := 0x80000000#32

/-- `LOWER`, bits 30:0 (rule R4). -/
def lowerMask : Word := 0x7FFFFFFF#32

/-- `INIT_MULT`, the seed recurrence multiplier (rule R4). -/
def initMult : Word := 1812433253#32

/-- `TMASK_B`, used with the left shift by 7 (rule R4). -/
def temperMaskB : Word := 0x9D2C5680#32

/-- `TMASK_C`, used with the left shift by 15 (rule R4). -/
def temperMaskC : Word := 0xEFC60000#32

/-- `NONNEG_MASK`, the mask of the non-negative draw (rule R4). -/
def nonnegMask : Word := 0x7FFFFFFF#32

/-- `MAG`, the two-entry mixing table, indexed by one bit (rules R4, R15). -/
def mag : BitVec 1 → Word
  | 0#1 => 0x00000000#32
  | _ => 0x9908B0DF#32

end Sys2Proof.Machine
end

