-- ==== Sys2Proof/Machine/Flags.lean ====
section
/-! DEFINITION. The `STATUS` register: the word a host reads and the writes commands make to its
fields (10_state.md rules R22, R23; 60_exceptions.md rules R120, R124, R129).  "No flag depends on a
computed value": there are no others. -/

namespace Sys2Proof.Machine

/-- `STATUS` as the host reads it (rule R22): bit 0 `RDY`, 1 `BUSY`, 2 `FAIL`, 3 zero, 4 `E_ILLCMD`,
5 `E_UNSEEDED`, 6 `E_RANGE`, 31:7 zero. -/
def statusWord (st : Status) : Word :=
  0#25 ++ BitVec.ofBool st.eRange ++ BitVec.ofBool st.eUnseeded ++ BitVec.ofBool st.eIllcmd ++ 0#1
    ++ BitVec.ofBool st.fail ++ BitVec.ofBool st.busy ++ BitVec.ofBool st.rdy

/-- Acceptance of a command: `STATUS.BUSY <- 1` (rules R22, R55). -/
def Status.accepted (st : Status) : Status := { st with busy := true }

/-- Completion of a successful command: `STATUS.FAIL <- 0`, `STATUS.BUSY <- 0` (rule R55). -/
def Status.succeeded (st : Status) : Status := { st with fail := false, busy := false }

/-- A failure's record: `STATUS.FAIL <- 1`, the sticky flag of the cause `<- 1`, `STATUS.BUSY <- 0`; the
other flags keep their values (rule R124). -/
def Status.failed (c : Cause) (st : Status) : Status :=
  match c with
  | .illegalCommand => { st with fail := true, busy := false, eIllcmd := true }
  | .unseeded => { st with fail := true, busy := false, eUnseeded := true }
  | .rangeOrder => { st with fail := true, busy := false, eRange := true }

/-- The mode becomes READY: `STATUS.RDY <- 1` (rules R12, R62). -/
def Status.ready (st : Status) : Status := { st with rdy := true }

/-- The three sticky flags `<- 0` (rule R110). -/
def Status.stickyCleared (st : Status) : Status :=
  { st with eIllcmd := false, eUnseeded := false, eRange := false }

/-- The sticky flag of a cause (rule R120). -/
def Status.sticky (c : Cause) (st : Status) : Bool :=
  match c with
  | .illegalCommand => st.eIllcmd
  | .unseeded => st.eUnseeded
  | .rangeOrder => st.eRange

/-- The code of a cause (rule R120): "equals the sticky flag's bit position minus 3". -/
def Cause.code : Cause → Nat
  | .illegalCommand => 1
  | .unseeded => 2
  | .rangeOrder => 3

end Sys2Proof.Machine
end

