-- ==== Sys2Proof/Machine/Operands.lean ====
section
/-! DEFINITION. The operand readings of rule R46 (30_encoding.md) and the bit fields results are made of
(rules R34, R48). -/

namespace Sys2Proof.Machine

/-- `signed32(v)`: `v` if `v < 2^31`, else `v - 2^32` (00_scope.md section 4). -/
def signed32 (v : Word) : Int :=
  if v.toNat < 2 ^ 31 then (v.toNat : Int) else (v.toNat : Int) - 2 ^ 32

/-- `v mod 2^32`, the two's-complement word of an integer (rule R48). -/
def wordOfInt (v : Int) : Word := BitVec.ofInt 32 v

/-- SEED's operand: `ARG0`, unsigned, all 2^32 values valid (rule R46). -/
def seedOperand (s : State) : Word := s.arg0

/-- RANGE's `min`: `signed32(ARG0)` (rule R46). -/
def rangeMin (s : State) : Int := signed32 s.arg0

/-- RANGE's `max`: `signed32(ARG1)` (rule R46). -/
def rangeMax (s : State) : Int := signed32 s.arg1

/-- FILL's `L`: `ARG0`, unsigned (rule R46). -/
def fillLength (s : State) : Nat := s.arg0.toNat

/-- The seed a time value gives: its 32 least significant bits (40_seed.md rule R65). -/
def seedOfTime (t : Nat) : Word := BitVec.ofNat 32 t

/-- The bytes of a raw word, most significant first: `r[31:24]`, `r[23:16]`, `r[15:8]`, `r[7:0]`
(20_memory.md rule R34). -/
def bytesBigEndian (r : Word) : List Byte :=
  [r.extractLsb' 24 8, r.extractLsb' 16 8, r.extractLsb' 8 8, r.extractLsb' 0 8]

/-- Bits 31:0 of a 64-bit result (rule R48). -/
def lowWord (d : DWord) : Word := d.extractLsb' 0 32

/-- Bits 63:32 of a 64-bit result (rule R48). -/
def highWord (d : DWord) : Word := d.extractLsb' 32 32

/-- The register at a byte offset of the host register space; none at any other offset
(20_memory.md rules R32, R36, R39). -/
def hostRegAt (offset : Nat) : Option HostReg :=
  match offset with
  | 0x00 => some .cmd
  | 0x04 => some .arg0
  | 0x08 => some .arg1
  | 0x0C => some .status
  | 0x10 => some .resLo
  | 0x14 => some .resHi
  | _ => none

/-- The byte offset of a host register (10_state.md rule R16). -/
def hostRegOffset : HostReg → Nat
  | .cmd => 0x00
  | .arg0 => 0x04
  | .arg1 => 0x08
  | .status => 0x0C
  | .resLo => 0x10
  | .resHi => 0x14

end Sys2Proof.Machine
end

