-- ==== Sys2Proof/Machine/Ops.lean ====
section
/-! DEFINITION. The named operations on the state that the commands share: access to the state vector,
the common execution template, failing, results, the byte stream and the time port. -/

namespace Sys2Proof.Machine

/-- `mt[i]`, a read of one word of the state vector (20_memory.md rule R31). -/
def StateVector.read (mt : StateVector) (i : Fin 624) : Word := mt.get i

/-- `mt[i] <- v`, a write of one word of the state vector (20_memory.md rule R31). -/
def StateVector.write (mt : StateVector) (i : Fin 624) (v : Word) : StateVector := mt.set i v

/-- TAKING A FAILURE, `raise X` (60_exceptions.md rule R124): `FAIL` and the sticky flag of the cause are
set, `BUSY` is cleared, the command ends.  "Nothing is saved and control goes nowhere"; every other
item of the state is as it was.  There is no return from it: `FAIL` is cleared by the next command
that succeeds (rule R129, `State.succeed`). -/
def State.raise (c : Cause) (s : State) : State := { s with status := s.status.failed c }

/-- The end of a successful command (30_encoding.md rule R55): `FAIL <- 0`, `BUSY <- 0`. -/
def State.succeed (s : State) : State := { s with status := s.status.succeeded }

/-- Seeding's last act and its effect on the mode: the generator is the new one, `RDY <- 1`
(40_seed.md rule R62). -/
def State.makeReady (g : Generator) (s : State) : State :=
  { s with gen := some g, status := s.status.ready }

/-- The generator after the extractions of a draw (42_extract.md rule R82). -/
def State.putGenerator (g : Generator) (s : State) : State := { s with gen := some g }

/-- A 64-bit result: `RES_LO` takes bits 31:0, `RES_HI` bits 63:32 (30_encoding.md rule R48). -/
def State.putResult64 (d : DWord) (s : State) : State :=
  { s with resLo := lowWord d, resHi := highWord d }

/-- A 32-bit result: `RES_LO` takes it, `RES_HI <- 0x00000000` (30_encoding.md rule R48). -/
def State.putResult32 (w : Word) (s : State) : State := { s with resLo := w, resHi := 0 }

/-- `Emit` of each byte in turn: the trace only grows at its end (10_state.md rule R24). -/
def State.emit (bs : List StreamByte) (s : State) : State := { s with obytes := s.obytes ++ bs }

/-- `TimeIn()`: the value on the `TIME_IN` port (10_state.md rule R25).  For a SEEDT in progress it is
the value taken at its acceptance, else the value a `TIME` line drives (30_encoding.md rule R53),
else a free value, a new one at each sampling (93 U6). -/
def State.timeIn (s : State) : Nat :=
  match s.timeLatch, s.timeNext with
  | some t, _ => t
  | none, some t => t
  | none, none => Config.timeIn s.freeCount

/-- The port after `TimeIn()` has been read once: what was read is used up. -/
def State.afterTimeIn (s : State) : State :=
  match s.timeLatch, s.timeNext with
  | some _, _ => { s with timeLatch := none }
  | none, some _ => { s with timeNext := none }
  | none, none => { s with freeCount := s.freeCount + 1 }

/-- The Unseeded check of the template (30_encoding.md rule R55, 60_exceptions.md rule R122), which
every draw command makes before anything else: with `RDY = 0` the command fails, and otherwise its
body runs on the generator. -/
def drawCommand (s : State) (body : Generator → Host.Outcome State Fault Refusal) :
    Host.Outcome State Fault Refusal :=
  if s.status.rdy then
    match s.gen with
    | some g => body g
    | none => .fault .noStateVector
  else .next (s.raise .unseeded)

end Sys2Proof.Machine
end

