-- ==== Sys2Proof/Machine/Control.lean ====
section
/-! DEFINITION. The housekeeping command CLRERR (44_control.md). -/

namespace Sys2Proof.Machine

/-- CLRERR (44_control.md rule R110): the three sticky flags to 0 and, succeeding, `FAIL` to 0; in either
mode; nothing else. -/
def execClrerr (s : State) : Host.Outcome State Fault Refusal :=
  .next ({ s with status := s.status.stickyCleared }.succeed)

end Sys2Proof.Machine
end

