-- ==== Sys2Proof/Machine/Binary64.lean ====
section
/-! DEFINITION. The binary64 arithmetic of SAMPLE and RANGE (43_sampling.md rules R95, R96; 92 D17), on
exact rationals.  Only zero and normal numbers arise (rules R93, R97), so nothing else is defined. -/

namespace Sys2Proof.Machine

/-- `2^e` for an integer `e`, exactly. -/
def pow2 : Int → ℚ
  | .ofNat n => ((2 ^ n : Nat) : ℚ)
  | .negSucc n => 1 / ((2 ^ (n + 1) : Nat) : ℚ)

/-- The integer `e` with `2^e ≤ q < 2^(e+1)`, for `q > 0` (rule R96).  The numerator and the denominator
of `q` have exponents `a` and `b`, so `e` is `a - b` or one less. -/
def floorLog2 (q : ℚ) : Int :=
  let e : Int := (Nat.log2 q.num.toNat : Int) - (Nat.log2 q.den : Int)
  if pow2 e ≤ q then e else e - 1

/-- The rounding of a significand `k` to an integer: to nearest, a half to the even one (rule R96). -/
def roundHalfEven (k : ℚ) : Int :=
  let n := ⌊k⌋
  let f := k - n
  if 1 / 2 < f ∨ (f = 1 / 2 ∧ n % 2 = 1) then n + 1 else n

/-- `rne53(q)`, the binary64 value nearest to `q`, ties to even (rule R96). -/
def rne53 (q : ℚ) : ℚ :=
  if q = 0 then 0
  else
    let ulp := pow2 (floorLog2 |q| - 52)
    (if q < 0 then -1 else 1) * roundHalfEven (|q| / ulp) * ulp

/-- `f64bits(d)`, the pattern of a binary64 value that is zero or normal (rule R95): sign, biased
exponent, fraction. -/
def f64bits (d : ℚ) : DWord :=
  if d = 0 then 0
  else
    let e := floorLog2 |d|
    BitVec.ofBool (d < 0) ++ BitVec.ofNat 11 (e + 1023).toNat
      ++ BitVec.ofNat 52 ⌊(|d| / pow2 e - 1) * pow2 52⌋.toNat

/-- The value of a 64-bit pattern whose biased exponent is 1 to 2046, and zero where exponent and
fraction are zero (rule R95). -/
def f64value (b : DWord) : ℚ :=
  let sign : ℚ := if b.getLsbD 63 then -1 else 1
  let exponent : Nat := (b.extractLsb' 52 11).toNat
  let fraction : Nat := (b.extractLsb' 0 52).toNat
  if exponent = 0 then 0
  else sign * pow2 ((exponent : Int) - 1023) * (1 + (fraction : ℚ) / pow2 52)

/-- `u = r / 2^32`, the unit-interval double of a raw word, exactly (rule R93). -/
def unitDouble (r : Word) : ℚ := (r.toNat : ℚ) / pow2 32

end Sys2Proof.Machine
end

