-- ==== Sys2Proof/Machine/Twist.lean ====
section
/-! DEFINITION. The twist/regeneration engine (41_twist.md): no command of its own, a sub-step of
`Extract()`. -/

namespace Sys2Proof.Machine

/-- The intermediate value `y`: bit 31 of one word joined with bits 30:0 of the following word
(41_twist.md rules R70, R72). -/
def intermediate (upper lower : Word) : Word := (upper &&& upperMask) ||| (lower &&& lowerMask)

/-- `third ^ (y >> 1) ^ MAG[y & 1]` (41_twist.md rule R70). -/
def twistWord (third y : Word) : Word := third ^^^ (y >>> 1) ^^^ mag (y.extractLsb' 0 1)

/-- Iteration `i` of the pass, in place (41_twist.md rule R70): every read is of the vector as it is at
that moment.  Index arithmetic in `Fin 624` is modulo 624. -/
def twistStep (i : Fin 624) (mt : StateVector) : StateVector :=
  mt.write i (twistWord (mt.read (i + 397)) (intermediate (mt.read i) (mt.read (i + 1))))

/-- The vector after iterations 0, 1, ..., n-1 of the pass, in this order (41_twist.md rule R70). -/
def twistUpTo : (n : Nat) → StateVector → StateVector
  | 0, mt => mt
  | n + 1, mt => twistStep (Fin.ofNat 624 n) (twistUpTo n mt)

/-- `TwistFn`: the whole pass as a function of the state vector (41_twist.md rules R70, R75). -/
def twist (mt : StateVector) : StateVector := twistUpTo 624 mt

/-- `Twist()`: the pass, and `idx <- 0` after it (41_twist.md rules R70, R76). -/
def Generator.twisted (g : Generator) : Generator := ⟨twist g.mt, 0⟩

end Sys2Proof.Machine
end

