-- ==== Sys2Proof/Machine/Extract.lean ====
section
/-! DEFINITION. The tempering/extraction pipeline: `Temper`, `Extract` and the command RAW
(42_extract.md). -/

namespace Sys2Proof.Machine

/-- `Temper(x)` (42_extract.md rule R80, 90 C3): four steps in this order, each on the result of the one
before; in the second and third the mask applies to the shifted copy only. -/
def temper (x : Word) : Word :=
  let y := x ^^^ (x >>> 11)
  let y := y ^^^ ((y <<< 7) &&& temperMaskB)
  let y := y ^^^ ((y <<< 15) &&& temperMaskC)
  y ^^^ (y >>> 18)

/-- The read, the advance and the tempering of `Extract()` at a cursor that points at a word: the
untempered word stays in the vector (42_extract.md rules R81, R82). -/
def Generator.takeWord (g : Generator) (h : g.idx.val < 624) : Word × Generator :=
  (temper (g.mt.read ⟨g.idx.val, h⟩), ⟨g.mt, ⟨g.idx.val + 1, by omega⟩⟩)

/-- `Extract()` (42_extract.md rule R82): with `idx = 624` the pass runs first and leaves `idx = 0`; then
one word is read, the cursor is incremented and the word is tempered.  The test is made once, at the
start; the cursor is at most 624, so not below 624 is 624. -/
def Generator.extract (g : Generator) : Word × Generator :=
  if h : g.idx.val < 624 then g.takeWord h
  else g.twisted.takeWord (by simp [Generator.twisted])

/-- `n` extractions, one after another: the words, first one first, and the generator after them
(42_extract.md rule R86). -/
def Generator.extractMany : (n : Nat) → Generator → List Word × Generator
  | 0, g => ([], g)
  | n + 1, g =>
    (g.extract.1 :: (extractMany n g.extract.2).1, (extractMany n g.extract.2).2)

/-- RAW (42_extract.md rule R84): one extraction, its word unmodified. -/
def execRaw (s : State) : Host.Outcome State Fault Refusal :=
  drawCommand s fun g =>
    .next (((s.putGenerator g.extract.2).putResult32 g.extract.1).succeed)

end Sys2Proof.Machine
end

