-- ==== Sys2Proof/Machine/Sampling.lean ====
section
/-! DEFINITION. The uniform-range samplers NEXT, SAMPLE, RANGE and FILL (43_sampling.md). -/

namespace Sys2Proof.Machine

/-- NEXT (43_sampling.md rules R91, R92): the raw word with its sign bit cleared. -/
def execNext (s : State) : Host.Outcome State Fault Refusal :=
  drawCommand s fun g =>
    .next (((s.putGenerator g.extract.2).putResult32 (g.extract.1 &&& nonnegMask)).succeed)

/-- SAMPLE (43_sampling.md rule R93): the binary64 bits of `r / 2^32`. -/
def execSample (s : State) : Host.Outcome State Fault Refusal :=
  drawCommand s fun g =>
    .next (((s.putGenerator g.extract.2).putResult64 (f64bits (unitDouble g.extract.1))).succeed)

/-- The value of RANGE for `min ≤ max` (43_sampling.md rule R97): the difference is exact, the product
and the sum are rounded separately, the floor is exact. -/
def rangeValue (r : Word) (min max : Int) : Int :=
  let p := rne53 (unitDouble r * ((max - min : Int) : ℚ))
  let t := rne53 (p + (min : ℚ))
  ⌊t⌋

/-- RANGE (43_sampling.md rules R97, R100): RangeOrder for `max < min` in the signed reading, before any
extraction; else exactly one extraction, also when `min = max`. -/
def execRange (s : State) : Host.Outcome State Fault Refusal :=
  drawCommand s fun g =>
    if rangeMax s < rangeMin s then .next (s.raise .rangeOrder)
    else
      .next (((s.putGenerator g.extract.2).putResult32
        (wordOfInt (rangeValue g.extract.1 (rangeMin s) (rangeMax s)))).succeed)

/-- `ceil(L/4)`, computed exactly (43_sampling.md rules R102, R105). -/
def fillCount (length : Nat) : Nat := length / 4 + (if length % 4 = 0 then 0 else 1)

/-- The bytes of a FILL in the order they are emitted: each word's four, most significant first, "stopping
as soon as L bytes have been written" (43_sampling.md rule R102). -/
def fillBytes (length : Nat) (words : List Word) : List Byte :=
  (words.flatMap bytesBigEndian).take length

/-- The bytes of one FILL on the stream: the last one, and no other, carries the `last` marker
(10_state.md rule R24, 43_sampling.md rules R102, R104). -/
def markLast : List Byte → List StreamByte
  | [] => []
  | [b] => [⟨b, true⟩]
  | b :: c :: bs => ⟨b, false⟩ :: markLast (c :: bs)

/-- What a FILL of `length` bytes emits from a generator (43_sampling.md rules R102, R103). -/
def fillStream (length : Nat) (g : Generator) : List StreamByte :=
  markLast (fillBytes length (g.extractMany (fillCount length)).1)

/-- FILL (43_sampling.md rules R102 to R106): `ceil(L/4)` extractions, exactly `L` bytes; for `L = 0`
neither. -/
def execFill (s : State) : Host.Outcome State Fault Refusal :=
  drawCommand s fun g =>
    .next (((s.putGenerator (g.extractMany (fillCount (fillLength s))).2).emit
      (fillStream (fillLength s) g)).succeed)

end Sys2Proof.Machine
end

