-- ==== Sys2Proof/Machine/Seed.lean ====
section
/-! DEFINITION. The seed-initialization engine: `SeedInit` and the commands SEED and SEEDT
(40_seed.md). -/

namespace Sys2Proof.Machine

/-- One term of the seed recurrence: `1812433253 * (p ^ (p >> 30)) + i` modulo 2^32, from the word `p`
just written at index `i-1` (40_seed.md rule R60). -/
def seedNext (p : Word) (i : Nat) : Word := initMult * (p ^^^ (p >>> 30)) + BitVec.ofNat 32 i

/-- `n` words of the seed recurrence, the first of them `p`, at index `i`, in index order
(40_seed.md rule R60). -/
def seedWords : (n : Nat) → (i : Nat) → (p : Word) → List Word
  | 0, _, _ => []
  | n + 1, i, p => p :: seedWords n (i + 1) (seedNext p (i + 1))

theorem seedWords_length (n i : Nat) (p : Word) : (seedWords n i p).length = n := by
  induction n generalizing i p with
  | zero => rfl
  | succ n ih => simp [seedWords, ih]

/-- The 624 words `SeedInit(s)` writes (40_seed.md rule R60).  "All 624 words are written and none is
read before it is written", so they depend on the seed alone. -/
def seedVector (seed : Word) : StateVector :=
  ⟨(seedWords 624 0 seed).toArray, by simp [seedWords_length]⟩

/-- `SeedInit(s)` (40_seed.md rule R60): the seeded vector and `idx <- 624`, which "forces a twist before
the first extraction". -/
def seedInit (seed : Word) : Generator := ⟨seedVector seed, 624⟩

/-- SEED (40_seed.md rules R62, R63): a new generator from `ARG0`, in either mode; it cannot fail. -/
def execSeed (s : State) : Host.Outcome State Fault Refusal :=
  .next ((s.makeReady (seedInit (seedOperand s))).succeed)

/-- SEEDT (40_seed.md rules R64, R65): a new generator from the low 32 bits of `TimeIn()`, in either
mode; it cannot fail. -/
def execSeedt (s : State) : Host.Outcome State Fault Refusal :=
  .next ((s.afterTimeIn.makeReady (seedInit (seedOfTime s.timeIn))).succeed)

end Sys2Proof.Machine
end

