-- ==== Sys2Proof/Machine/Dispatch.lean ====
section
/-! DEFINITION. The meaning of each command, one arm per constructor of `Instr` (30_encoding.md rules R49,
R55). -/

namespace Sys2Proof.Machine

def exec (i : Instr) (s : State) : Host.Outcome State Fault Refusal :=
  match i with
  | .seed => Sys2Proof.Machine.execSeed s
  | .seedt => Sys2Proof.Machine.execSeedt s
  | .clrerr => Sys2Proof.Machine.execClrerr s
  | .raw => Sys2Proof.Machine.execRaw s
  | .next => Sys2Proof.Machine.execNext s
  | .sample => Sys2Proof.Machine.execSample s
  | .range => Sys2Proof.Machine.execRange s
  | .fill => Sys2Proof.Machine.execFill s

end Sys2Proof.Machine
end

