-- ==== Sys2Proof/Machine/HostPort.lean ====
section
/-! DEFINITION. The boundary of the core: what a host access, the reset input and the time port do
(10_state.md rules R16 to R26; 44_control.md rules R112 to R114; 70_reset_and_hazards.md). -/

namespace Sys2Proof.Machine

/-- A command word runs to completion (30_encoding.md rules R47, R50, R55): an illegal word fails with
IllegalCommand, any other is the command it decodes to. -/
def runCommand (w : Word) (s : State) : Host.Outcome State Fault Refusal :=
  match decode w with
  | .command i => exec i s
  | .illegal _ => .next (s.raise .illegalCommand)

/-- The host writes a register (44_control.md rule R112; 70_reset_and_hazards.md rule R148): `CMD` takes
one command, `ARG0` and `ARG1` take the value, and writes to the read-only registers are ignored. -/
def hostWrite (r : HostReg) (v : Word) (s : State) : Host.Outcome State Fault Refusal :=
  match r with
  | .cmd => if s.status.busy then .refused .writeWhileBusy else runCommand v s
  | .arg0 => if s.status.busy then .refused .writeWhileBusy else .next { s with arg0 := v }
  | .arg1 => if s.status.busy then .refused .writeWhileBusy else .next { s with arg1 := v }
  | .status => .next s
  | .resLo => .next s
  | .resHi => .next s

/-- `STATUS` as read while `BUSY = 1` (44_control.md rule R113): `BUSY` reads 1, the reserved bits 0
(10_state.md rule R22), and the other five flags are a free value. -/
def busyStatusWord (n : Nat) : Word := (Config.busyRead n &&& 0x75#32) ||| 0x02#32

/-- The value a host read returns (44_control.md rule R113, 10_state.md rules R16, R17).  While
`BUSY = 1` the result registers and the flags other than `BUSY` are unspecified
(70_reset_and_hazards.md rule R147). -/
def hostReadValue (r : HostReg) (s : State) : Word :=
  match r with
  | .cmd => 0
  | .arg0 => s.arg0
  | .arg1 => s.arg1
  | .status => if s.status.busy then busyStatusWord s.freeCount else statusWord s.status
  | .resLo => if s.status.busy then Config.busyRead s.freeCount else s.resLo
  | .resHi => if s.status.busy then Config.busyRead s.freeCount else s.resHi

/-- The host reads a register: the core is unchanged (20_memory.md rule R38) and the value joins the
host's record.  A read made while busy uses up a free value. -/
def hostRead (r : HostReg) (s : State) : State :=
  { s with
    reads := s.reads ++ [(r, hostReadValue r s)]
    freeCount := if s.status.busy then s.freeCount + 1 else s.freeCount }

/-- A `CMD` write that the host does not wait for: acceptance alone (30_encoding.md rule R55,
10_state.md rule R27).  A SEEDT takes its time value now (40_seed.md rule R64). -/
def acceptCommand (w : Word) (s : State) : Host.Outcome State Fault Refusal :=
  if s.status.busy then .refused .writeWhileBusy
  else
    let t := if decode w = .command .seedt then { s.afterTimeIn with timeLatch := some s.timeIn } else s
    .next { t with status := s.status.accepted, inFlight := some w }

/-- The command in progress completes (10_state.md rule R27); with none in progress nothing happens.  Its
operands are still those of its acceptance, because no host write reaches `ARG0` or `ARG1` while
`BUSY = 1`. -/
def completeCommand (s : State) : Host.Outcome State Fault Refusal :=
  match s.inFlight with
  | some w => runCommand w { s with inFlight := none }
  | none => .next s

/-- The bytes the command in progress leaves on the stream if `RESET` abandons it
(70_reset_and_hazards.md rule R142): for a FILL that would succeed a prefix of its bytes, of a length
that is a free choice between 0 and `L`, the `last` marker possibly missing; for any other command
none. -/
def abandonedBytes (s : State) : List StreamByte :=
  match s.inFlight, s.gen with
  | some w, some g =>
    if decode w = .command .fill ∧ s.status.rdy = true then
      let prefixBytes := (fillStream (fillLength s) g).take (Config.abandonedCount s.freeCount)
      prefixBytes.map fun b => { b with last := b.last && Config.abandonedLast s.freeCount }
    else []
  | _, _ => []

/-- The reset input (70_reset_and_hazards.md rules R140 to R142): every item of the core takes its reset
value; bytes already emitted stay emitted (10_state.md rule R28).  What is not the core's (the time
port, the host's own record, the events to come) stays. -/
def resetCore (s : State) : State :=
  { State.reset with
    obytes := s.obytes ++ abandonedBytes s
    timeNext := s.timeNext
    events := s.events
    reads := s.reads
    freeCount := s.freeCount + 1 }

/-- One event at the boundary.  An access at an offset that is none of the six has no step
(20_memory.md rule R36). -/
def performEvent (e : Event) (s : State) : Host.Outcome State Fault Refusal :=
  match e with
  | .write offset v =>
    match hostRegAt offset with
    | some r => hostWrite r v s
    | none => .refused (.noSuchRegister offset)
  | .read offset =>
    match hostRegAt offset with
    | some r => .next (hostRead r s)
    | none => .refused (.noSuchRegister offset)
  | .reset => .next (resetCore s)
  | .time t => .next { s with timeNext := some t }
  | .accept w => acceptCommand w s
  | .complete => completeCommand s

/-- The next event is taken; with none to come the core waits (10_state.md rule R28, "the core waits for
the first command"; 70_reset_and_hazards.md rule R145). -/
def nextEvent (s : State) : Host.Outcome State Fault Refusal :=
  match s.events with
  | [] => .next s
  | e :: rest => performEvent e { s with events := rest }

/-- The state in which the host is about to write one word to `CMD`, the core idle. -/
def presentCommand (w : Word) (s : State) : State :=
  { s with
    status := { s.status with busy := false }
    inFlight := none
    timeLatch := none
    events := .write (hostRegOffset .cmd) w :: s.events }

end Sys2Proof.Machine
end

