-- ==== Sys2Proof/Machine/Step.lean ====
section
/-! DEFINITION. One step of the machine: one event at the boundary of the core, a command being one of
them (92_eei_decisions.md D1; 30_encoding.md rule R55). -/

namespace Sys2Proof.Machine

/-- One step. -/
def step (s : State) : Host.Outcome State Fault Refusal := nextEvent s

/-- `s` with one command word, numbered as spec/opcode_table.json numbers its bits, as the next thing
the host writes to `CMD`. -/
def State.withFetchWord (s : State) (nbits w : Nat) : State := presentCommand (tableWord nbits w) s

end Sys2Proof.Machine
end

