-- ==== Sys2Proof/Safety.lean ====
section
/-! DEFINITION. The terms the statements are made in: the invariant of the machine, the source's
three-range form of the twist pass, runs of one command, and which commands draw. -/

namespace Sys2Proof.Machine

/-- What every reachable state is like.  The first clause is 10_state.md rule R29, the second and third
what rule R27 says of a command in progress; the last three follow from rules R124, R129, R20, R21
and R123. -/
structure Inv (s : State) : Prop where
  /-- READY exactly when the state vector and the cursor hold values. -/
  ready_iff_generator : s.status.rdy = s.gen.isSome
  /-- BUSY exactly while a command is in progress. -/
  busy_iff_in_flight : s.status.busy = s.inFlight.isSome
  /-- A time value is held only for a SEEDT in progress. -/
  latch_only_for_seedt : s.timeLatch.isSome = true → ∃ w, s.inFlight = some w ∧ decode w = .command .seedt
  /-- FAIL comes with the sticky flag of its cause. -/
  fail_has_cause : s.status.fail = true →
    s.status.eIllcmd = true ∨ s.status.eUnseeded = true ∨ s.status.eRange = true
  /-- No result exists before seeding. -/
  unseeded_no_result : s.status.rdy = false → s.resLo = 0 ∧ s.resHi = 0
  /-- RangeOrder is a failure of READY only. -/
  range_order_only_ready : s.status.eRange = true → s.status.rdy = true

/-- The draw commands (00_scope.md section 5): "any of RAW, NEXT, SAMPLE, RANGE, FILL". -/
def isDraw : Instr → Bool
  | .raw | .next | .sample | .range | .fill => true
  | .seed | .seedt | .clrerr => false

/-- How many extractions a draw command makes when it succeeds (43_sampling.md rule R90). -/
def extractionCount : Instr → State → Nat
  | .raw, _ | .next, _ | .sample, _ | .range, _ => 1
  | .fill, s => (s.arg0.toNat + 3) / 4
  | .seed, _ | .seedt, _ | .clrerr, _ => 0

/-- The first `n` iterations of a loop `for i = lo, lo+1, ...` over the state vector. -/
def loopFrom (body : Nat → StateVector → StateVector) (lo : Nat) : (n : Nat) → StateVector → StateVector
  | 0, mt => mt
  | n + 1, mt => body (lo + n) (loopFrom body lo n mt)

/-- One assignment of the three-range form, with the three indices written out
(41_twist.md rule R71). -/
def twist3Assign (i j k : Fin 624) (mt : StateVector) : StateVector :=
  let y := (mt[i] &&& 0x80000000#32) ||| (mt[j] &&& 0x7FFFFFFF#32)
  mt.set i (mt[k] ^^^ (y >>> 1) ^^^ (if y.getLsbD 0 then 0x9908B0DF#32 else 0#32))

/-- `Twist3`, the source's three-range form (41_twist.md rule R71): i = 0 .. 226, then i = 227 .. 622, then
623. -/
def twist3 (mt : StateVector) : StateVector :=
  let mt := loopFrom (fun i => twist3Assign (Fin.ofNat 624 i) (Fin.ofNat 624 (i + 1)) (Fin.ofNat 624 (i + 397)))
    0 227 mt
  let mt := loopFrom (fun i => twist3Assign (Fin.ofNat 624 i) (Fin.ofNat 624 (i + 1)) (Fin.ofNat 624 (i - 227)))
    227 396 mt
  twist3Assign 623 0 396 mt

/-- `n` commands of one kind, one after another, as long as they answer a next state. -/
def execTimes (i : Instr) : (n : Nat) → State → Host.Outcome State Fault Refusal
  | 0, s => .next s
  | n + 1, s =>
    match exec i s with
    | .next t => execTimes i n t
    | .fault r => .fault r
    | .refused r => .refused r

/-- The command word that an event runs to completion, if it runs one: a word written to `CMD`, or the one in
progress when it completes. -/
def wordRun (e : Event) (s : State) : Option Word :=
  match e with
  | .write offset w => if offset = 0x00 then some w else none
  | .complete => s.inFlight
  | .read _ | .reset | .time _ | .accept _ => none

/-- The command that an event runs to completion, if it runs one. -/
def commandRun (e : Event) (s : State) : Option Instr := (wordRun e s).bind commandOf

/-- The word the closed form of the twist pass gives (41_twist.md rule R73): `S(i) ^ (y >> 1) ^ MAG[y & 1]`, where bit
0 of `y` is bit 0 of the lower word. -/
def twistTerm (third upper lower : Word) : Word :=
  let y := (upper &&& 0x80000000#32) ||| (lower &&& 0x7FFFFFFF#32)
  third ^^^ (y >>> 1) ^^^ (if lower.getLsbD 0 then 0x9908B0DF#32 else 0#32)

end Sys2Proof.Machine
end

