-- ==== Sys2Proof/Certificates/Slice0/Obligations.lean ====
section
/-! DEFINITION. The statements for the provers.  Each docstring names the rules of spec/ it formalises. -/

open Sys2Proof Sys2Proof.Machine

/-! ### Encoding -/

/-- The opcode map of 30_encoding.md section 3: the eight words, and an example of each kind of illegal word. -/
def Obligations.OpcodeMapWords : Prop :=
  decode 0x00000001#32 = .command .seed ∧ decode 0x00000002#32 = .command .seedt ∧
  decode 0x00000003#32 = .command .clrerr ∧ decode 0x00000010#32 = .command .raw ∧
  decode 0x00000011#32 = .command .next ∧ decode 0x00000012#32 = .command .sample ∧
  decode 0x00000013#32 = .command .range ∧ decode 0x00000014#32 = .command .fill ∧
  decode 0x00000000#32 = .illegal .unlistedOpcode ∧
  decode 0x00000018#32 = .illegal .delegatedNextMaxValue ∧
  decode 0x00000110#32 = .illegal .reservedBitsSet

/-- Decoding and encoding agree on all 2^32 words, and a word is a command's exactly when both checks of rule
R47 pass. -/
def Obligations.DecodeInvertsEncode : Prop :=
  ∀ w : Word,
    (∀ i : Instr, decode w = .command i ↔ w = encode i) ∧
    (wellFormedWord w = true ↔ ∃ i : Instr, decode w = .command i)

/-- Rules R47, R50, R121: decoding is total, a function of the word alone; a word with `w[31:8] ≠ 0` or with
`w[7:0]` outside the eight values (0x18 among them) fails with IllegalCommand in every state and changes only
`FAIL` and `E_ILLCMD` (and ends with `BUSY = 0`); every other word selects exactly one command. -/
def Obligations.EveryWordIsOneCommandOrIllegal : Prop :=
  ∀ (w : Word) (s : State),
    ((w.toNat / 2 ^ 8 ≠ 0 ∨ w.toNat % 2 ^ 8 ∉ [0x01, 0x02, 0x03, 0x10, 0x11, 0x12, 0x13, 0x14]) →
      runCommand w s =
        .next { s with status := { s.status with fail := true, busy := false, eIllcmd := true } }) ∧
    (¬ (w.toNat / 2 ^ 8 ≠ 0 ∨ w.toNat % 2 ^ 8 ∉ [0x01, 0x02, 0x03, 0x10, 0x11, 0x12, 0x13, 0x14]) →
      ∃! i : Instr, decode w = .command i ∧ runCommand w s = exec i s)

/-- A write of a command word to `CMD`, the core idle, runs exactly the command it decodes to, on the state with
that event taken; an illegal word fails; with no event to come the core waits. The list of events is the model's
own form of the host (notes/assumptions/3.md). -/
def Obligations.StepRunsTheDecodedCommand : Prop :=
  (∀ (s : State) (w : Word) (rest : List Event) (i : Instr),
    s.events = .write 0x00 w :: rest → s.status.busy = false → decode w = .command i →
      step s = exec i { s with events := rest }) ∧
  (∀ (s : State) (w : Word) (rest : List Event) (why : IllegalWord),
    s.events = .write 0x00 w :: rest → s.status.busy = false → decode w = .illegal why →
      step s = .next { s with
        events := rest, status := { s.status with fail := true, busy := false, eIllcmd := true } }) ∧
  (∀ s : State, s.events = [] → step s = .next s) ∧
  (∀ (s : State) (nbits w : Nat) (i : Instr), decodeTableWord nbits w = some i →
    step (s.withFetchWord nbits w) =
      exec i { s with status := { s.status with busy := false }, inFlight := none, timeLatch := none })

/-! ### Seeding -/

/-- Rule R60: the seed recurrence, in exact integers reduced modulo 2^32, and `idx = 624` after it. -/
def Obligations.SeedInitRecurrence : Prop :=
  ∀ seed : Word,
    (seedInit seed).mt.read 0 = seed ∧
    (∀ i : Fin 624, 1 ≤ i.val →
      ((seedInit seed).mt.read i).toNat =
        (1812433253 * (((seedInit seed).mt.read (i - 1)).toNat ^^^ (((seedInit seed).mt.read (i - 1)).toNat / 2 ^ 30))
          + i.val) % 2 ^ 32) ∧
    (seedInit seed).idx.val = 624

/-- Rule R61 and 93_implementation_defined.md section 2: seeding has no failure mode, seed 0 starts 0, 1,
0x6C078967, and no seed gives the all-zero vector. -/
def Obligations.SeedingNeverFailsNorGivesZeroVector : Prop :=
  (∀ s : State, ∃ t : State, exec .seed s = .next t ∧ t.status.fail = false ∧ t.gen = some (seedInit s.arg0)) ∧
  (∀ seed : Word, ∃ i : Fin 624, (seedInit seed).mt.read i ≠ 0#32) ∧
  (seedInit 0#32).mt.read 0 = 0x00000000#32 ∧ (seedInit 0#32).mt.read 1 = 0x00000001#32 ∧
  (seedInit 0#32).mt.read 2 = 0x6C078967#32

/-- Rule R62: SEED's word, what it writes and what it does not, in every state. -/
def Obligations.SeedCommand : Prop :=
  decode 0x00000001#32 = .command .seed ∧ ∀ s : State,
    exec .seed s = .next { s with
      gen := some (seedInit s.arg0)
      status := { s.status with rdy := true, fail := false, busy := false } } ∧
    (seedInit s.arg0).idx.val = 624

/-- 40_seed.md section 3 (rules R64, R65): SEEDT seeds with the time value modulo 2^32 and writes what SEED
writes; the value is the one the port is driven with, or else a free one; with the seed in `ARG0` SEED would
leave the same generator and `STATUS`. The driven and the free port are the model's way of giving `TimeIn()`
(notes/assumptions/1.md). -/
def Obligations.SeedtCommand : Prop :=
  decode 0x00000002#32 = .command .seedt ∧ ∀ s : State, ∃ t : State,
    exec .seedt s = .next t ∧
    t.gen = some (seedInit (BitVec.ofNat 32 (s.timeIn % 2 ^ 32))) ∧
    t.status = { s.status with rdy := true, fail := false, busy := false } ∧
    t.arg0 = s.arg0 ∧ t.arg1 = s.arg1 ∧ t.resLo = s.resLo ∧ t.resHi = s.resHi ∧ t.obytes = s.obytes ∧
    t.inFlight = s.inFlight ∧ t.events = s.events ∧ t.reads = s.reads ∧
    (s.timeLatch = none → ∀ v, s.timeNext = some v → s.timeIn = v ∧ t.timeNext = none ∧ t.freeCount = s.freeCount) ∧
    (s.timeLatch = none → s.timeNext = none →
      s.timeIn = Config.timeIn s.freeCount ∧ t.freeCount = s.freeCount + 1) ∧
    (∃ u : State, exec .seed { s with arg0 := BitVec.ofNat 32 (s.timeIn % 2 ^ 32) } = .next u ∧
      u.gen = t.gen ∧ u.status = t.status)

/-- 40_seed.md section 2 (rule R63, in part): a reseeding overwrites the whole generator: what generator there
was, and whether there was one, leaves no mark. -/
def Obligations.ReseedForgetsOldGenerator : Prop :=
  ∀ (s : State) (g : Option Generator) (mode : Bool),
    exec .seed { s with gen := g, status := { s.status with rdy := mode } } = exec .seed s ∧
    exec .seedt { s with gen := g, status := { s.status with rdy := mode } } = exec .seedt s

/-- The `TIME` line of 30_encoding.md section 5: "for the next SEEDT, `TimeIn()` returns `value`"; with a port
wider than 32 bits only the low 32 bits count (rule R65). The event is the model's form of that line
(notes/assumptions/1.md). -/
def Obligations.DrivenTimeSeedsNextSeedt : Prop :=
  ∀ (s : State) (ticks : Nat) (rest : List Event), s.status.busy = false → s.timeLatch = none →
    ∃ t u : State, step { s with events := .time ticks :: .write 0x00 0x00000002#32 :: rest } = .next t ∧
      step t = .next u ∧ u.gen = some (seedInit (BitVec.ofNat 32 ticks)) ∧ u.status.rdy = true ∧
      u.arg0 = s.arg0 ∧ u.timeNext = none

/-! ### The twist pass -/

/-- 41_twist.md section 1 (rule R73, which the spec derives from its rule R70): the closed form of the in-place
pass, which says for each index which words are old and which are already rewritten. -/
def Obligations.TwistReadsOldAndNewWords : Prop :=
  ∀ mt : StateVector,
    (∀ i : Fin 624, i.val ≤ 226 →
      (twist mt).read i =
        twistTerm (mt.read (Fin.ofNat 624 (i.val + 397))) (mt.read i) (mt.read (Fin.ofNat 624 (i.val + 1)))) ∧
    (∀ i : Fin 624, 227 ≤ i.val → i.val ≤ 622 →
      (twist mt).read i =
        twistTerm ((twist mt).read (Fin.ofNat 624 (i.val - 227))) (mt.read i)
          (mt.read (Fin.ofNat 624 (i.val + 1)))) ∧
    (twist mt).read 623 = twistTerm ((twist mt).read 396) (mt.read 623) ((twist mt).read 0)

/-- 41_twist.md section 1 (rules R71, R72): the modulo-indexed pass and the source's three-range form leave the
same vector. -/
def Obligations.TwistEqualsThreeRangeForm : Prop :=
  ∀ mt : StateVector, twist mt = twist3 mt

/-- 41_twist.md section 2 and 42_extract.md section 2 (rules R74, R83): the pass runs exactly at `idx = 624`, so
before extraction k after seeding iff `k mod 624 = 1`, and after k extractions `idx = ((k-1) mod 624) + 1`. -/
def Obligations.PassRunsEvery624Extractions : Prop :=
  (∀ g : Generator, (g.idx.val ≠ 624 → g.extract.2.mt = g.mt) ∧ (g.idx.val = 624 → g.extract.2.mt = twist g.mt)) ∧
  (∀ g : Generator, 1 ≤ g.extract.2.idx.val ∧ g.extract.2.idx.val ≤ 624) ∧
  (∀ (seed : Word) (k : Nat), 1 ≤ k →
    (((seedInit seed).extractMany (k - 1)).2.idx.val = 624 ↔ k % 624 = 1) ∧
    ((seedInit seed).extractMany k).2.idx.val = (k - 1) % 624 + 1)

/-- The whole raw sequence after a seeding, in closed form: extraction k returns the tempered word `(k-1) mod
624` of the seeded vector twisted `ceil(k/624)` times, and leaves that vector untempered. -/
def Obligations.RawSequenceClosedForm : Prop :=
  ∀ (seed : Word) (k : Nat),
    ((seedInit seed).extractMany (k + 1)).2.mt = twist^[k / 624 + 1] (seedInit seed).mt ∧
    ((seedInit seed).extractMany (k + 1)).1.getLast? =
      some (temper (StateVector.read (twist^[k / 624 + 1] (seedInit seed).mt) (Fin.ofNat 624 k)))

/-! ### Tempering and extraction -/

/-- Rule R80: the four steps of `Temper`, in exact integers reduced modulo 2^32. -/
def Obligations.TemperSteps : Prop :=
  ∀ (x : Word) (y1 y2 y3 : Nat),
    y1 = x.toNat ^^^ (x.toNat / 2 ^ 11) →
    y2 = y1 ^^^ ((y1 * 2 ^ 7 % 2 ^ 32) &&& 0x9D2C5680) →
    y3 = y2 ^^^ ((y2 * 2 ^ 15 % 2 ^ 32) &&& 0xEFC60000) →
    (temper x).toNat = y3 ^^^ (y3 / 2 ^ 18)

/-- 95_test_vectors.md V30: "`Temper` is a bijection on 32-bit words, so `Temper(x) = 0` only for `x = 0`". -/
def Obligations.TemperIsBijective : Prop :=
  Function.Bijective temper ∧ ∀ x : Word, temper x = 0#32 ↔ x = 0#32

/-- Rule R82: what an extraction reads, returns and writes, below the end of the vector and at it. -/
def Obligations.ExtractReadsTempersAdvances : Prop :=
  ∀ g : Generator,
    (∀ h : g.idx.val < 624,
      g.extract.1 = temper (g.mt.read ⟨g.idx.val, h⟩) ∧ g.extract.2.mt = g.mt ∧ g.extract.2.idx.val = g.idx.val + 1) ∧
    (g.idx.val = 624 →
      g.extract.1 = temper ((twist g.mt).read 0) ∧ g.extract.2.mt = twist g.mt ∧ g.extract.2.idx.val = 1)

/-- 42_extract.md section 3 (rule R85, of which the spec computes nine values itself): after SEED 1 the first
ten raw draws are the reference sequence. -/
def Obligations.ReferenceSequenceOfSeedOne : Prop :=
  ∀ s : State, s.arg0 = 1#32 → ∃ (t : State) (g : Generator),
    exec .seed s = .next t ∧ t.gen = some g ∧
    (g.extractMany 10).1 =
      [1791095845#32, 4282876139#32, 3093770124#32, 4005303368#32, 491263#32, 550290313#32, 1298508491#32,
        4290846341#32, 630311759#32, 1013994432#32]

/-- Rule R90: every draw command changes the generator only through its fixed number of extractions: 1 for RAW,
NEXT, SAMPLE and RANGE, `ceil(L/4)` for FILL, none where it fails; with `RDY = 0` it fails with Unseeded. -/
def Obligations.DrawCommandExtractionCounts : Prop :=
  ∀ (i : Instr) (s t : State) (g : Generator), isDraw i = true → s.gen = some g → exec i s = .next t →
    (t.status.fail = false → t.gen = some (g.extractMany (extractionCount i s)).2) ∧
    (t.status.fail = true → t.gen = s.gen) ∧
    (s.status.rdy = false → t = { s with status := { s.status with fail := true, busy := false, eUnseeded := true } })

/-- 42_extract.md section 3 (rule R86, in part): the n-th RAW from a state returns the n-th word of its sequence
and leaves the generator where any other way of making n extractions leaves it. -/
def Obligations.RawCommandsWalkTheSequence : Prop :=
  ∀ (n : Nat) (s : State) (g : Generator), s.status.rdy = true → s.gen = some g →
    ∃ t : State, execTimes .raw (n + 1) s = .next t ∧
      t.gen = some (g.extractMany (n + 1)).2 ∧
      some t.resLo = (g.extractMany (n + 1)).1.getLast? ∧ t.resHi = 0#32 ∧
      t.status = { s.status with fail := false, busy := false }

/-! ### RAW, NEXT, SAMPLE -/

/-- Rule R84: RAW's word; RAW in READY, with everything it writes; every 32-bit value can be its result; in
UNSEEDED it fails and nothing else changes. -/
def Obligations.RawCommand : Prop :=
  decode 0x00000010#32 = .command .raw ∧
  (∀ v : Word, ∃ s t : State, exec .raw s = .next t ∧ t.status.fail = false ∧ t.resLo = v) ∧
  ∀ s : State,
    (∀ g : Generator, s.status.rdy = true → s.gen = some g →
      exec .raw s = .next { s with
        gen := some g.extract.2
        resLo := g.extract.1
        resHi := 0x00000000#32
        status := { s.status with fail := false, busy := false } }) ∧
    (s.status.rdy = false →
      exec .raw s = .next { s with status := { s.status with fail := true, busy := false, eUnseeded := true } })

/-- Rule R91: NEXT's word; NEXT in READY: bits 30:0 of the raw word, bit 31 clear; in UNSEEDED it fails. -/
def Obligations.NextCommand : Prop :=
  decode 0x00000011#32 = .command .next ∧ ∀ s : State,
    (∀ g : Generator, s.status.rdy = true → s.gen = some g → ∃ v : Word,
      v.toNat = g.extract.1.toNat % 2 ^ 31 ∧ v.toInt = (v.toNat : Int) ∧
      exec .next s = .next { s with
        gen := some g.extract.2
        resLo := v
        resHi := 0x00000000#32
        status := { s.status with fail := false, busy := false } }) ∧
    (s.status.rdy = false →
      exec .next s = .next { s with status := { s.status with fail := true, busy := false, eUnseeded := true } })

/-- Rule R92: the maximum of NEXT is 2147483647: no result is above it, and it is reached. -/
def Obligations.NextMaximum : Prop :=
  (∀ s t : State, exec .next s = .next t → t.status.fail = false → t.resLo.toNat ≤ 2147483647) ∧
  (∃ s t : State, exec .next s = .next t ∧ t.status.fail = false ∧ t.resLo.toNat = 2147483647)

/-- Rule R93: SAMPLE's word; SAMPLE in READY: the pattern it delivers has the value `r / 2^32`, which lies in
[0, 1); the pattern is positive, +0.0 only for zero, never subnormal, infinite or NaN, and its 21 lowest bits
are zero; in UNSEEDED it fails. -/
def Obligations.SampleCommand : Prop :=
  decode 0x00000012#32 = .command .sample ∧ ∀ s : State,
    (∀ g : Generator, s.status.rdy = true → s.gen = some g → ∃ d : DWord,
      exec .sample s = .next { s with
        gen := some g.extract.2
        resLo := d.extractLsb' 0 32
        resHi := d.extractLsb' 32 32
        status := { s.status with fail := false, busy := false } } ∧
      f64value d = (g.extract.1.toNat : ℚ) / 4294967296 ∧ 0 ≤ f64value d ∧ f64value d < 1 ∧
      d.getLsbD 63 = false ∧ (d.extractLsb' 52 11).toNat ≠ 2047 ∧
      ((d.extractLsb' 52 11).toNat = 0 → d = 0#64) ∧ d.toNat % 2 ^ 21 = 0) ∧
    (s.status.rdy = false →
      exec .sample s = .next { s with status := { s.status with fail := true, busy := false, eUnseeded := true } })

/-- 43_sampling.md section 3 (rule R94, which the spec derives from its rules R93, R95): the bit-field packing
of `r / 2^32`, with `p` the index of the most significant 1 bit of `r`. -/
def Obligations.SampleBitPacking : Prop :=
  f64bits (unitDouble 0#32) = 0x0000000000000000#64 ∧
  ∀ (r : Word) (p : Nat), 2 ^ p ≤ r.toNat → r.toNat < 2 ^ (p + 1) →
    (f64bits (unitDouble r)).getLsbD 63 = false ∧
    ((f64bits (unitDouble r)).extractLsb' 52 11).toNat = 991 + p ∧
    ((f64bits (unitDouble r)).extractLsb' 0 52).toNat = (r.toNat - 2 ^ p) * 2 ^ (52 - p) ∧
    ((f64bits (unitDouble r)).extractLsb' 0 21).toNat = 0

/-! ### RANGE -/

/-- 43_sampling.md section 3 (rule R96, which 92_eei_decisions.md D17 takes from general knowledge): `rne53` on
every rational, with `e` the exponent of `q`. -/
def Obligations.RoundingIsNearestTiesToEven : Prop :=
  rne53 0 = 0 ∧
  ∀ (q : ℚ) (e : Int), q ≠ 0 → (2 : ℚ) ^ e ≤ |q| → |q| < (2 : ℚ) ^ (e + 1) →
    ∀ (k f : ℚ) (n : Int), k = |q| / (2 : ℚ) ^ (e - 52) → n = ⌊k⌋ → f = k - n →
      rne53 q = (if q < 0 then -1 else 1) *
        ((if f > 1 / 2 ∨ (f = 1 / 2 ∧ n % 2 = 1) then n + 1 else n : Int) : ℚ) * (2 : ℚ) ^ (e - 52)

/-- 43_sampling.md section 3 on `rne53`: its result has a significand of at most 53 bits, and no number with
such a significand is nearer to `q`. -/
def Obligations.RoundingIsNearest : Prop :=
  ∀ q : ℚ,
    (∃ m e : Int, |m| ≤ 2 ^ 53 ∧ rne53 q = (m : ℚ) * (2 : ℚ) ^ e) ∧
    (∀ m e : Int, |m| ≤ 2 ^ 53 → |rne53 q - q| ≤ |(m : ℚ) * (2 : ℚ) ^ e - q|)

/-- Rule R97, with the rounding of 92_eei_decisions.md D17: RANGE's word; RANGE in READY with `min ≤ max` in the
signed reading: the binary64 formula with its two roundings and an exact difference, one extraction; its corner
cases; RangeOrder for `max < min`; Unseeded in UNSEEDED. -/
def Obligations.RangeCommand : Prop :=
  decode 0x00000013#32 = .command .range ∧ ∀ s : State,
    (∀ g : Generator, s.status.rdy = true → s.gen = some g → s.arg0.toInt ≤ s.arg1.toInt → ∃ v : Int,
      v = ⌊rne53 (rne53 ((g.extract.1.toNat : ℚ) / 2 ^ 32 * ((s.arg1.toInt - s.arg0.toInt : Int) : ℚ))
        + (s.arg0.toInt : ℚ))⌋ ∧
      (s.arg0 = s.arg1 → v = s.arg0.toInt) ∧ (g.extract.1 = 0#32 → v = s.arg0.toInt) ∧
      exec .range s = .next { s with
        gen := some g.extract.2
        resLo := BitVec.ofInt 32 v
        resHi := 0x00000000#32
        status := { s.status with fail := false, busy := false } }) ∧
    (∀ g : Generator, s.status.rdy = true → s.gen = some g → s.arg1.toInt < s.arg0.toInt →
      exec .range s = .next { s with status := { s.status with fail := true, busy := false, eRange := true } }) ∧
    (s.status.rdy = false →
      exec .range s = .next { s with status := { s.status with fail := true, busy := false, eUnseeded := true } })

/-- 43_sampling.md section 4 (rule R98, which the spec derives from its rules R96, R97): the result lies in the
closed interval, so it is a signed 32-bit value; it is `min` when `min = max`; it can be `max` with `min < max`.
-/
def Obligations.RangeResultBounds : Prop :=
  (∀ (r : Word) (min max : Int), -2 ^ 31 ≤ min → min ≤ max → max < 2 ^ 31 →
    min ≤ rangeValue r min max ∧ rangeValue r min max ≤ max ∧
    (BitVec.ofInt 32 (rangeValue r min max)).toInt = rangeValue r min max ∧
    (min = max → rangeValue r min max = min)) ∧
  rangeValue 0xFFFFFFFF#32 2147483646 2147483647 = 2147483647

/-- 43_sampling.md section 4 (rule R99, which the spec derives from its rules R96, R97): on the bounded region
RANGE is an exact integer formula and stays below `max`. -/
def Obligations.RangeExactRegion : Prop :=
  ∀ (r : Word) (min max : Int), -2 ^ 20 ≤ min → min ≤ max → max ≤ 2 ^ 20 →
    rangeValue r min max = min + ((r.toNat : Int) * (max - min)) / 2 ^ 32 ∧
    (min < max → rangeValue r min max < max)

/-- Rules R100, R123: RANGE in READY with `max < min` in the signed reading fails with RangeOrder, makes no
extraction and changes nothing but `FAIL` and `E_RANGE` (and ends with `BUSY = 0`). -/
def Obligations.RangeOrderFails : Prop :=
  ∀ (s : State) (g : Generator), s.status.rdy = true → s.gen = some g → s.arg1.toInt < s.arg0.toInt →
    exec .range s = .next { s with status := { s.status with fail := true, busy := false, eRange := true } }

/-! ### FILL -/

/-- Rule R102: FILL's word; FILL in READY: `ceil(L/4)` extractions, exactly `L` bytes appended, byte k being
byte `k mod 4`, most significant first, of extraction `floor(k/4) + 1`; the byte with k = L-1 and no other
carries the marker; in UNSEEDED it fails. -/
def Obligations.FillCommand : Prop :=
  decode 0x00000014#32 = .command .fill ∧ ∀ s : State,
    (∀ g : Generator, s.status.rdy = true → s.gen = some g →
      ∀ ws : List Word, ws = (g.extractMany ((s.arg0.toNat + 3) / 4)).1 → ∃ bs : List StreamByte,
        exec .fill s = .next { s with
          gen := some (g.extractMany ((s.arg0.toNat + 3) / 4)).2
          obytes := s.obytes ++ bs
          status := { s.status with fail := false, busy := false } } ∧
        bs.length = s.arg0.toNat ∧
        (∀ (k : Nat) (b : StreamByte) (w : Word), bs[k]? = some b → ws[k / 4]? = some w →
          b.data.toNat = w.toNat / 256 ^ (3 - k % 4) % 256 ∧ (b.last = true ↔ k + 1 = s.arg0.toNat)) ∧
        (∀ k : Nat, k < s.arg0.toNat → k / 4 < ws.length)) ∧
    (s.status.rdy = false →
      exec .fill s = .next { s with status := { s.status with fail := true, busy := false, eUnseeded := true } })

/-- Rule R104: `FILL 0` in READY changes nothing but `FAIL` (to 0); in UNSEEDED it fails with Unseeded like
every draw command. -/
def Obligations.FillZeroLength : Prop :=
  ∀ s : State, s.arg0 = 0#32 →
    (∀ g : Generator, s.status.rdy = true → s.gen = some g →
      exec .fill s = .next { s with status := { s.status with fail := false, busy := false } }) ∧
    (s.status.rdy = false →
      exec .fill s = .next { s with status := { s.status with fail := true, busy := false, eUnseeded := true } })

/-- 43_sampling.md section 5 (rule R105, which the spec derives from its rule R102): the extraction count is
exact for every 32-bit length, also where a wrapping `L + 3` would not be. -/
def Obligations.FillCountIsExact : Prop :=
  (∀ length : Nat, length < 2 ^ 32 →
    fillCount length = (length >>> 2) + (if length &&& 3 ≠ 0 then 1 else 0) ∧
    length ≤ 4 * fillCount length ∧ 4 * fillCount length < length + 4 ∧ fillCount length ≤ 2 ^ 30) ∧
  fillCount 0xFFFFFFFD = 2 ^ 30

/-- 43_sampling.md section 5 (rule R106, which the spec derives from its rule R102): a FILL leaves the generator
where `ceil(L/4)` RAW commands leave it, the last word consumed whole; and two commands `FILL 2` emit two bytes
of one extraction and two of the next. -/
def Obligations.FillConsumesWholeWords : Prop :=
  (∀ (s t : State) (g : Generator), s.status.rdy = true → s.gen = some g → exec .fill s = .next t →
    ∃ u : State, execTimes .raw ((s.arg0.toNat + 3) / 4) s = .next u ∧ u.gen = t.gen) ∧
  (∀ (s : State) (g : Generator), s.status.rdy = true → s.gen = some g → s.arg0 = 2#32 → ∃ (t u : State),
    exec .fill s = .next t ∧ exec .fill t = .next u ∧
    u.obytes = s.obytes ++
      [⟨g.extract.1.extractLsb' 24 8, false⟩, ⟨g.extract.1.extractLsb' 16 8, true⟩,
        ⟨g.extract.2.extract.1.extractLsb' 24 8, false⟩, ⟨g.extract.2.extract.1.extractLsb' 16 8, true⟩])

/-! ### Failures -/

/-- Rule R122: every draw command accepted with `RDY = 0` fails with Unseeded (a FILL of length 0 and a RANGE
with bad order too), and SEED, SEEDT and CLRERR never do. -/
def Obligations.UnseededDrawFails : Prop :=
  (∀ (i : Instr) (s : State), isDraw i = true → s.status.rdy = false →
    exec i s = .next { s with status := { s.status with fail := true, busy := false, eUnseeded := true } }) ∧
  (∀ (i : Instr) (s : State), isDraw i = false → ∃ t : State, exec i s = .next t ∧
    t.status.fail = false ∧ (t.status.eUnseeded = true → s.status.eUnseeded = true))

/-- Rule R124: the state after a failed command equals the state before it except for `FAIL` and one sticky flag
(and `BUSY`, which is 0 after every command). -/
def Obligations.FailedCommandChangesOnlyFlags : Prop :=
  ∀ (w : Word) (s t : State), runCommand w s = .next t → t.status.fail = true →
    t = { s with status := { s.status with fail := true, busy := false, eIllcmd := true } } ∨
    t = { s with status := { s.status with fail := true, busy := false, eUnseeded := true } } ∨
    t = { s with status := { s.status with fail := true, busy := false, eRange := true } }

/-- Rule R125: what never fails, and completes: SEED, SEEDT and CLRERR in every state; in READY the scalar
draws, RANGE with `min ≤ max`, and FILL of every length. -/
def Obligations.WhatNeverFails : Prop :=
  (∀ (i : Instr) (s : State), isDraw i = false → ∃ t : State, exec i s = .next t ∧ t.status.fail = false) ∧
  (∀ (i : Instr) (s : State) (g : Generator), isDraw i = true → s.status.rdy = true → s.gen = some g →
    (i = .range → s.arg0.toInt ≤ s.arg1.toInt) → ∃ t : State, exec i s = .next t ∧ t.status.fail = false)

/-- Rule R127: at most one cause is reported, IllegalCommand before Unseeded before RangeOrder. -/
def Obligations.OneCauseByPriority : Prop :=
  ∀ (w : Word) (s t : State), runCommand w s = .next t →
    (wellFormedWord w = false →
      t = { s with status := { s.status with fail := true, busy := false, eIllcmd := true } }) ∧
    (∀ i : Instr, decode w = .command i → isDraw i = true → s.status.rdy = false →
      t = { s with status := { s.status with fail := true, busy := false, eUnseeded := true } }) ∧
    (decode w = .command .range → s.status.rdy = true → s.arg1.toInt < s.arg0.toInt →
      t = { s with status := { s.status with fail := true, busy := false, eRange := true } }) ∧
    (∀ i : Instr, decode w = .command i → (isDraw i = true → s.status.rdy = true) →
      (i = .range → s.arg0.toInt ≤ s.arg1.toInt) → t.status.fail = false)

/-- Rule R129: `FAIL` is cleared only by a command that succeeds and by reset; a sticky flag only by CLRERR and
by reset, which both clear all four. Over every event of the machine. -/
def Obligations.FlagsClearedOnlyAsStated : Prop :=
  ∀ (s t : State) (e : Event) (rest : List Event), s.events = e :: rest → step s = .next t →
    (s.status.fail = true → t.status.fail = false → e = .reset ∨ ∃ i : Instr, commandRun e s = some i) ∧
    (((s.status.eIllcmd = true ∧ t.status.eIllcmd = false) ∨
        (s.status.eUnseeded = true ∧ t.status.eUnseeded = false) ∨
        (s.status.eRange = true ∧ t.status.eRange = false)) →
      e = .reset ∨ commandRun e s = some .clrerr) ∧
    (∀ i : Instr, commandRun e s = some i → t.status.fail = false ∨
      t.status.eIllcmd = true ∨ t.status.eUnseeded = true ∨ t.status.eRange = true) ∧
    (e = .reset ∨ commandRun e s = some .clrerr →
      t.status.fail = false ∧ t.status.eIllcmd = false ∧ t.status.eUnseeded = false ∧ t.status.eRange = false)

/-- Rule R12: the transitions of the mode, over every event of the machine. -/
def Obligations.ModeTransitions : Prop :=
  ∀ (s t : State) (e : Event) (rest : List Event), s.events = e :: rest → step s = .next t →
    (s.status.rdy = false → t.status.rdy = true → commandRun e s = some .seed ∨ commandRun e s = some .seedt) ∧
    (s.status.rdy = true → t.status.rdy = false → e = .reset) ∧
    (commandRun e s = some .seed ∨ commandRun e s = some .seedt → t.status.rdy = true) ∧
    (e = .reset → t.status.rdy = false)

/-! ### CLRERR, the host's registers and the reset input -/

/-- Rule R110: CLRERR's word; CLRERR in every state: the three sticky flags and `FAIL` to 0, nothing else. -/
def Obligations.ClrerrCommand : Prop :=
  decode 0x00000003#32 = .command .clrerr ∧ ∀ s : State, exec .clrerr s = .next { s with
    status := { s.status with
      fail := false, busy := false, eIllcmd := false, eUnseeded := false, eRange := false } }

/-- Rule R112: a host write made while `BUSY = 0`, to each of the six registers. -/
def Obligations.HostWriteRegisters : Prop :=
  ∀ (s : State) (v : Word) (rest : List Event), s.status.busy = false →
    step { s with events := .write 0x00 v :: rest } = runCommand v { s with events := rest } ∧
    step { s with events := .write 0x04 v :: rest } = .next { s with events := rest, arg0 := v } ∧
    step { s with events := .write 0x08 v :: rest } = .next { s with events := rest, arg1 := v } ∧
    step { s with events := .write 0x0C v :: rest } = .next { s with events := rest } ∧
    step { s with events := .write 0x10 v :: rest } = .next { s with events := rest } ∧
    step { s with events := .write 0x14 v :: rest } = .next { s with events := rest }

/-- 44_control.md section 2 and 20_memory.md section 3 (rules R113, R38, in part): a host read returns the
register (`CMD` reads 0) and changes no register, no flag, no state word and no byte; while `BUSY = 1` bit 1 of
the `STATUS` read is 1. The record of the values read is the model's own (notes/assumptions/9.md). -/
def Obligations.HostReadRegisters : Prop :=
  (∀ (s : State) (rest : List Event), s.status.busy = false →
    step { s with events := .read 0x00 :: rest } =
      .next { s with events := rest, reads := s.reads ++ [(.cmd, 0x00000000#32)] } ∧
    step { s with events := .read 0x04 :: rest } =
      .next { s with events := rest, reads := s.reads ++ [(.arg0, s.arg0)] } ∧
    step { s with events := .read 0x08 :: rest } =
      .next { s with events := rest, reads := s.reads ++ [(.arg1, s.arg1)] } ∧
    step { s with events := .read 0x0C :: rest } =
      .next { s with events := rest, reads := s.reads ++ [(.status, statusWord s.status)] } ∧
    step { s with events := .read 0x10 :: rest } =
      .next { s with events := rest, reads := s.reads ++ [(.resLo, s.resLo)] } ∧
    step { s with events := .read 0x14 :: rest } =
      .next { s with events := rest, reads := s.reads ++ [(.resHi, s.resHi)] }) ∧
  (∀ (s t : State) (off : Nat) (rest : List Event), s.events = .read off :: rest → step s = .next t →
    t.gen = s.gen ∧ t.status = s.status ∧ t.arg0 = s.arg0 ∧ t.arg1 = s.arg1 ∧ t.resLo = s.resLo ∧
    t.resHi = s.resHi ∧ t.obytes = s.obytes ∧ t.inFlight = s.inFlight) ∧
  (∀ (s : State) (rest : List Event), s.events = .read 0x0C :: rest → s.status.busy = true →
    ∃ (t : State) (v : Word), step s = .next t ∧ t.reads = s.reads ++ [(.status, v)] ∧ v.getLsbD 1 = true)

/-- The `STATUS` layout of 10_state.md section 2: each flag at its bit, bits 3 and 31:7 zero. -/
def Obligations.StatusLayout : Prop :=
  ∀ st : Status,
    (statusWord st).getLsbD 0 = st.rdy ∧ (statusWord st).getLsbD 1 = st.busy ∧
    (statusWord st).getLsbD 2 = st.fail ∧ (statusWord st).getLsbD 3 = false ∧
    (statusWord st).getLsbD 4 = st.eIllcmd ∧ (statusWord st).getLsbD 5 = st.eUnseeded ∧
    (statusWord st).getLsbD 6 = st.eRange ∧ (statusWord st).toNat / 2 ^ 7 = 0

/-- Rule R148: a write of `CMD`, `ARG0` or `ARG1` while `BUSY = 1` has no step. -/
def Obligations.NoWritesWhileBusy : Prop :=
  ∀ (s : State) (v : Word) (rest : List Event), s.status.busy = true →
    step { s with events := .write 0x00 v :: rest } = .refused .writeWhileBusy ∧
    step { s with events := .write 0x04 v :: rest } = .refused .writeWhileBusy ∧
    step { s with events := .write 0x08 v :: rest } = .refused .writeWhileBusy ∧
    step { s with events := .accept v :: rest } = .refused .writeWhileBusy

/-- 20_memory.md section 3 (rule R36, in part): an access at an offset that is not one of the six has no step,
and each of the six has a register of its own. -/
def Obligations.OnlySixOffsetsAnswer : Prop :=
  (∀ (s : State) (off : Nat) (v : Word) (rest : List Event),
    off ∉ [0x00, 0x04, 0x08, 0x0C, 0x10, 0x14] →
      step { s with events := .write off v :: rest } = .refused (.noSuchRegister off) ∧
      step { s with events := .read off :: rest } = .refused (.noSuchRegister off)) ∧
  (∀ (off : Nat) (r : HostReg), hostRegAt off = some r ↔ off = hostRegOffset r)

/-- 10_state.md section 4 and 92_eei_decisions.md D1: a command that is accepted and completes later leaves
exactly what the same command in one step leaves. Acceptance and completion as two events are the model's form
(notes/assumptions/6.md). -/
def Obligations.HeldCommandEqualsAtomicCommand : Prop :=
  ∀ (s : State) (w : Word) (rest : List Event),
    s.status.busy = false → s.inFlight = none → s.timeLatch = none →
      ∃ t : State, step { s with events := .accept w :: .complete :: rest } = .next t ∧
        t.status.busy = true ∧ step t = step { s with events := .write 0x00 w :: rest }

/-- Rule R141: the state after reset. -/
def Obligations.ResetStateValues : Prop :=
  statusWord State.reset.status = 0x00000000#32 ∧ State.reset.status.rdy = false ∧
  State.reset.status.busy = false ∧ State.reset.gen = none ∧
  State.reset.arg0 = 0x00000000#32 ∧ State.reset.arg1 = 0x00000000#32 ∧
  State.reset.resLo = 0x00000000#32 ∧ State.reset.resHi = 0x00000000#32 ∧ State.reset.obytes = []

/-- 70_reset_and_hazards.md section 1 and 10_state.md section 5 (rules R140, R28): the reset input from any
state: every item takes its reset value, and bytes already emitted stay (all of the trace where no command was
in progress). -/
def Obligations.ResetInput : Prop :=
  ∀ (s : State) (rest : List Event), s.events = .reset :: rest → ∃ t : State,
    step s = .next t ∧ t.gen = none ∧ t.status = State.reset.status ∧ t.arg0 = 0#32 ∧ t.arg1 = 0#32 ∧
    t.resLo = 0#32 ∧ t.resHi = 0#32 ∧ t.inFlight = none ∧ t.timeLatch = none ∧ t.events = rest ∧
    (s.inFlight = none → t.obytes = s.obytes)

/-- 70_reset_and_hazards.md section 1 (rule R142; the model's choice of form is notes/assumptions/5.md): a reset
while a command is in progress abandons it: the reset state, and on the stream a prefix of the bytes of an
abandoned FILL, of length 0 to `L`, a byte marked last only if the FILL would have marked it; nothing for any
other command. -/
def Obligations.ResetAbandonsCommand : Prop :=
  ∀ (s t : State) (rest : List Event) (w : Word),
    s.events = .reset :: rest → s.inFlight = some w → step s = .next t → ∃ bs : List StreamByte,
      t.obytes = s.obytes ++ bs ∧ t.resLo = 0#32 ∧ t.resHi = 0#32 ∧ t.gen = none ∧
      t.status = State.reset.status ∧
      (decode w ≠ .command .fill → bs = []) ∧
      (∀ (u : State) (full : List StreamByte), decode w = .command .fill → exec .fill s = .next u →
        u.obytes = s.obytes ++ full →
          bs.map StreamByte.data <+: full.map StreamByte.data ∧
          (∀ (k : Nat) (b c : StreamByte), bs[k]? = some b → full[k]? = some c → b.last = true → c.last = true))

/-! ### The whole machine -/

/-- The invariant holds in the state after reset. Its clauses beyond 10_state.md rule R29 are the model's
inference (notes/assumptions/13.md). -/
def Obligations.InvariantHoldsAtReset : Prop := Inv State.reset

/-- Every step keeps the invariant: READY exactly while the state vector and the cursor hold values (10_state.md
rule R29), BUSY exactly while a command is in progress, and the rest of `Inv`. The clauses beyond the first are
the model's inference (notes/assumptions/13.md). -/
def Obligations.EveryStepKeepsInvariant : Prop :=
  ∀ s t : State, Inv s → step s = .next t → Inv t

/-- 70_reset_and_hazards.md section 2 (rule R145): from every state that meets the invariant no step faults, and
with `BUSY = 0` every command word has a defined outcome; only a write while busy and an access outside the six
offsets have no step. The invariant is the model's inference (notes/assumptions/13.md). -/
def Obligations.NoStateRefusesCommands : Prop :=
  ∀ s : State, Inv s →
    (∀ f : Fault, step s ≠ .fault f) ∧
    (∀ w : Word, s.status.busy = false → ∃ t : State, runCommand w s = .next t ∧ t.status.busy = false) ∧
    (∀ r : Refusal, step s = .refused r →
      (r = .writeWhileBusy ∧ s.status.busy = true) ∨
      ∃ off : Nat, r = .noSuchRegister off ∧ off ∉ [0x00, 0x04, 0x08, 0x0C, 0x10, 0x14])

/-- 10_state.md section 3: the byte stream is append-only, and FILL is what adds to it. When its bytes appear is
the model's choice: all at the FILL's completion (notes/assumptions/6.md, unsafe for claims on the trace while
`BUSY = 1`), or, for a FILL in progress that a reset abandons, a free prefix at the reset
(notes/assumptions/5.md), where the hardware had emitted those bytes before it (10_state.md rule R28: reset
emits nothing). -/
def Obligations.ByteStreamOnlyGrows : Prop :=
  ∀ (s t : State) (e : Event) (rest : List Event), s.events = e :: rest → step s = .next t →
    ∃ bs : List StreamByte, t.obytes = s.obytes ++ bs ∧
      (bs ≠ [] → commandRun e s = some .fill ∨
        (e = .reset ∧ ∃ w : Word, s.inFlight = some w ∧ decode w = .command .fill))

/-- 10_state.md section 1: the state vector is written only by seeding and by the twist pass, and it goes only
at a reset. Over every event of the machine. That the generator is unchanged up to the completion event of a
command in progress is the model's choice (notes/assumptions/6.md, unsafe for claims on the generator while
`BUSY = 1`), since the hardware may then be half way through a recurrence or a pass. -/
def Obligations.VectorWrittenOnlyBySeedingAndTwist : Prop :=
  ∀ (s t : State) (e : Event) (rest : List Event), s.events = e :: rest → step s = .next t →
    (e = .reset ∧ t.gen = none) ∨ t.gen = s.gen ∨
    ((commandRun e s = some .seed ∨ commandRun e s = some .seedt) ∧ ∃ seed : Word, t.gen = some (seedInit seed)) ∨
    (∃ (i : Instr) (g h : Generator) (passes : Nat), commandRun e s = some i ∧ isDraw i = true ∧
      s.gen = some g ∧ t.gen = some h ∧ h.mt = twist^[passes] g.mt)

/-- 10_state.md section 1, encapsulation: two states that differ only in the generator's contents answer every
event but a draw command's completion and a reset in the middle of a command alike, so no such event shows the
host anything of it. That no event before the completion of a FILL in progress shows any of its bytes on the
stream is the model's choice (notes/assumptions/6.md, unsafe for claims on `BYTE_OUT` while `BUSY = 1`). -/
def Obligations.GeneratorHiddenFromHost : Prop :=
  ∀ (s t : State) (g g' : Generator) (e : Event) (rest : List Event),
    s.events = e :: rest → s.gen = some g → step s = .next t →
    (∀ i : Instr, commandRun e s = some i → isDraw i = false) → (e = .reset → s.inFlight = none) →
      ∃ t' : State, step { s with gen := some g' } = .next t' ∧ { t' with gen := none } = { t with gen := none }

/-- The frame of every command that answers a next state: what it may write, and nothing else. -/
def Obligations.CommandFrames : Prop :=
  ∀ (i : Instr) (s t : State), exec i s = .next t →
    t.arg0 = s.arg0 ∧ t.arg1 = s.arg1 ∧ t.inFlight = s.inFlight ∧ t.events = s.events ∧ t.reads = s.reads ∧
    (i ≠ .seedt → t.timeLatch = s.timeLatch ∧ t.timeNext = s.timeNext ∧ t.freeCount = s.freeCount) ∧
    (i ≠ .fill → t.obytes = s.obytes) ∧
    (i = .seed ∨ i = .seedt ∨ i = .clrerr ∨ i = .fill → t.resLo = s.resLo ∧ t.resHi = s.resHi) ∧
    (i = .clrerr → t.gen = s.gen) ∧
    (i ≠ .seed → i ≠ .seedt → t.status.rdy = s.status.rdy) ∧
    (i ≠ .clrerr → t.status.fail = false → t.status.eIllcmd = s.status.eIllcmd ∧
      t.status.eUnseeded = s.status.eUnseeded ∧ t.status.eRange = s.status.eRange) ∧
    t.status.busy = false

/-- Extractions that do not reach the end of the vector change no word of it: the frame of the draw commands on
the state vector. Rule R82: "State written: `idx` (always), `mt` (only if the pass runs)". -/
def Obligations.VectorUnchangedWithoutPass : Prop :=
  (∀ (g : Generator) (n : Nat), g.idx.val + n ≤ 624 →
    (g.extractMany n).2.mt = g.mt ∧ (g.extractMany n).2.idx.val = g.idx.val + n) ∧
  (∀ (i : Instr) (s t : State) (g h : Generator), isDraw i = true → s.gen = some g → exec i s = .next t →
    t.gen = some h → g.idx.val + extractionCount i s ≤ 624 → h.mt = g.mt)
end

