-- ==== Sys2Proof/Laws/Binary64.lean ====
section
/-! SUPPORT. The exponent arithmetic behind rounding to binary64. -/

namespace Sys2Proof.Machine

theorem pow2_eq_zpow (e : Int) : pow2 e = (2 : ℚ) ^ e := by
  cases e with
  | ofNat n => simp [pow2]
  | negSucc n => simp [pow2, zpow_negSucc]

theorem pow2_pos (e : Int) : 0 < pow2 e := by
  rw [pow2_eq_zpow]; positivity

theorem pow2_add (a b : Int) : pow2 (a + b) = pow2 a * pow2 b := by
  simp [pow2_eq_zpow, zpow_add₀]

/-- A quotient of numbers with exponents `a` and `b` has exponent `a - b` or one less. -/
theorem div_between_pow2 {a b : Nat} {x y : ℚ} (hxl : (2 : ℚ) ^ a ≤ x) (hxu : x < 2 ^ (a + 1))
    (hyl : (2 : ℚ) ^ b ≤ y) (hyu : y < 2 ^ (b + 1)) :
    pow2 ((a : Int) - b - 1) ≤ x / y ∧ x / y < pow2 ((a : Int) - b + 1) := by
  have hy : 0 < y := lt_of_lt_of_le (by positivity) hyl
  constructor
  · rw [pow2_eq_zpow, le_div_iff₀ hy]
    calc (2 : ℚ) ^ ((a : Int) - b - 1) * y
        ≤ (2 : ℚ) ^ ((a : Int) - b - 1) * (2 : ℚ) ^ (b + 1) :=
          mul_le_mul_of_nonneg_left hyu.le (by positivity)
      _ = (2 : ℚ) ^ a := by
        rw [← zpow_natCast, ← zpow_natCast, ← zpow_add₀ (by norm_num)]
        congr 1
        push_cast
        ring
      _ ≤ x := hxl
  · rw [pow2_eq_zpow, div_lt_iff₀ hy]
    calc x < (2 : ℚ) ^ (a + 1) := hxu
      _ = (2 : ℚ) ^ ((a : Int) - b + 1) * (2 : ℚ) ^ b := by
        rw [← zpow_natCast, ← zpow_natCast, ← zpow_add₀ (by norm_num)]
        congr 1
        push_cast
        ring
      _ ≤ (2 : ℚ) ^ ((a : Int) - b + 1) * y := mul_le_mul_of_nonneg_left hyl (by positivity)

/-- `floorLog2` is the exponent rule R96 asks for. -/
theorem floorLog2_spec {q : ℚ} (h : 0 < q) : pow2 (floorLog2 q) ≤ q ∧ q < pow2 (floorLog2 q + 1) := by
  have hnum : 0 < q.num := Rat.num_pos.mpr h
  have hn0 : q.num.toNat ≠ 0 := by omega
  have hn : (q.num.toNat : ℚ) = (q.num : ℚ) := by
    exact_mod_cast Int.toNat_of_nonneg hnum.le
  have hq : (q.num.toNat : ℚ) / (q.den : ℚ) = q := by rw [hn, Rat.num_div_den]
  have hb := div_between_pow2 (x := q.num.toNat) (y := q.den)
    (by exact_mod_cast Nat.log2_self_le hn0) (by exact_mod_cast Nat.lt_log2_self)
    (by exact_mod_cast Nat.log2_self_le q.den_nz) (by exact_mod_cast Nat.lt_log2_self)
  rw [hq] at hb
  unfold floorLog2
  dsimp only
  split
  · exact ⟨by assumption, hb.2⟩
  · rename_i hc
    refine ⟨hb.1, ?_⟩
    rw [Int.sub_add_cancel]
    exact not_le.mp hc

/-- The exponent of rule R96 is unique, so an exponent with its two inequalities is `floorLog2`. -/
theorem floorLog2_unique {q : ℚ} {e : Int} (hl : pow2 e ≤ q) (hu : q < pow2 (e + 1)) : floorLog2 q = e := by
  obtain ⟨hl', hu'⟩ := floorLog2_spec (lt_of_lt_of_le (pow2_pos e) hl)
  simp only [pow2_eq_zpow] at hl hu hl' hu'
  have below := (zpow_lt_zpow_iff_right₀ (by norm_num : (1 : ℚ) < 2)).1 (lt_of_le_of_lt hl hu')
  have above := (zpow_lt_zpow_iff_right₀ (by norm_num : (1 : ℚ) < 2)).1 (lt_of_le_of_lt hl' hu)
  omega

/-- No integer is nearer to `k` than the one `roundHalfEven` picks. -/
theorem roundHalfEven_nearest (k : ℚ) (j : Int) : |(roundHalfEven k : ℚ) - k| ≤ |(j : ℚ) - k| := by
  have hfloor : (⌊k⌋ : ℚ) ≤ k := Int.floor_le k
  have hceil : k < ⌊k⌋ + 1 := Int.lt_floor_add_one k
  have hj : (j : ℚ) ≤ ⌊k⌋ ∨ (⌊k⌋ : ℚ) + 1 ≤ j := by
    rcases le_or_gt j ⌊k⌋ with h | h
    · left; exact_mod_cast h
    · right; exact_mod_cast h
  unfold roundHalfEven
  dsimp only
  split
  · rename_i hup
    have hhalf : 1 / 2 ≤ k - ⌊k⌋ := by rcases hup with h | h <;> linarith [h]
    push_cast
    rw [abs_of_nonneg (by linarith)]
    rcases hj with h | h
    · rw [abs_of_nonpos (by linarith)]; linarith
    · rw [abs_of_nonneg (by linarith)]; linarith
  · rename_i hdown
    have hhalf : k - ⌊k⌋ ≤ 1 / 2 := by
      by_contra h
      exact hdown (.inl (by linarith))
    rw [abs_of_nonpos (by linarith)]
    rcases hj with h | h
    · rw [abs_of_nonpos (by linarith)]; linarith
    · rw [abs_of_nonneg (by linarith)]; linarith

end Sys2Proof.Machine
end

