-- ==== Sys2Proof/Laws/State.lean ====
section
/-! SUPPORT. One lemma per field per update of the state, so that no proof unfolds a record update. -/

namespace Sys2Proof.Machine

/-! ### `State.raise` -/

@[simp] theorem State.raise_gen (c : Cause) (s : State) : (s.raise c).gen = s.gen := rfl
@[simp] theorem State.raise_status (c : Cause) (s : State) : (s.raise c).status = s.status.failed c := rfl
@[simp] theorem State.raise_arg0 (c : Cause) (s : State) : (s.raise c).arg0 = s.arg0 := rfl
@[simp] theorem State.raise_arg1 (c : Cause) (s : State) : (s.raise c).arg1 = s.arg1 := rfl
@[simp] theorem State.raise_resLo (c : Cause) (s : State) : (s.raise c).resLo = s.resLo := rfl
@[simp] theorem State.raise_resHi (c : Cause) (s : State) : (s.raise c).resHi = s.resHi := rfl
@[simp] theorem State.raise_obytes (c : Cause) (s : State) : (s.raise c).obytes = s.obytes := rfl
@[simp] theorem State.raise_inFlight (c : Cause) (s : State) : (s.raise c).inFlight = s.inFlight := rfl
@[simp] theorem State.raise_timeLatch (c : Cause) (s : State) : (s.raise c).timeLatch = s.timeLatch := rfl
@[simp] theorem State.raise_timeNext (c : Cause) (s : State) : (s.raise c).timeNext = s.timeNext := rfl
@[simp] theorem State.raise_events (c : Cause) (s : State) : (s.raise c).events = s.events := rfl
@[simp] theorem State.raise_reads (c : Cause) (s : State) : (s.raise c).reads = s.reads := rfl
@[simp] theorem State.raise_freeCount (c : Cause) (s : State) : (s.raise c).freeCount = s.freeCount := rfl

/-! ### `State.succeed` -/

@[simp] theorem State.succeed_gen (s : State) : (s.succeed).gen = s.gen := rfl
@[simp] theorem State.succeed_status (s : State) : (s.succeed).status = s.status.succeeded := rfl
@[simp] theorem State.succeed_arg0 (s : State) : (s.succeed).arg0 = s.arg0 := rfl
@[simp] theorem State.succeed_arg1 (s : State) : (s.succeed).arg1 = s.arg1 := rfl
@[simp] theorem State.succeed_resLo (s : State) : (s.succeed).resLo = s.resLo := rfl
@[simp] theorem State.succeed_resHi (s : State) : (s.succeed).resHi = s.resHi := rfl
@[simp] theorem State.succeed_obytes (s : State) : (s.succeed).obytes = s.obytes := rfl
@[simp] theorem State.succeed_inFlight (s : State) : (s.succeed).inFlight = s.inFlight := rfl
@[simp] theorem State.succeed_timeLatch (s : State) : (s.succeed).timeLatch = s.timeLatch := rfl
@[simp] theorem State.succeed_timeNext (s : State) : (s.succeed).timeNext = s.timeNext := rfl
@[simp] theorem State.succeed_events (s : State) : (s.succeed).events = s.events := rfl
@[simp] theorem State.succeed_reads (s : State) : (s.succeed).reads = s.reads := rfl
@[simp] theorem State.succeed_freeCount (s : State) : (s.succeed).freeCount = s.freeCount := rfl

/-! ### `State.makeReady` -/

@[simp] theorem State.makeReady_gen (g : Generator) (s : State) : (s.makeReady g).gen = some g := rfl
@[simp] theorem State.makeReady_status (g : Generator) (s : State) : (s.makeReady g).status = s.status.ready := rfl
@[simp] theorem State.makeReady_arg0 (g : Generator) (s : State) : (s.makeReady g).arg0 = s.arg0 := rfl
@[simp] theorem State.makeReady_arg1 (g : Generator) (s : State) : (s.makeReady g).arg1 = s.arg1 := rfl
@[simp] theorem State.makeReady_resLo (g : Generator) (s : State) : (s.makeReady g).resLo = s.resLo := rfl
@[simp] theorem State.makeReady_resHi (g : Generator) (s : State) : (s.makeReady g).resHi = s.resHi := rfl
@[simp] theorem State.makeReady_obytes (g : Generator) (s : State) : (s.makeReady g).obytes = s.obytes := rfl
@[simp] theorem State.makeReady_inFlight (g : Generator) (s : State) : (s.makeReady g).inFlight = s.inFlight := rfl
@[simp] theorem State.makeReady_timeLatch (g : Generator) (s : State) : (s.makeReady g).timeLatch = s.timeLatch := rfl
@[simp] theorem State.makeReady_timeNext (g : Generator) (s : State) : (s.makeReady g).timeNext = s.timeNext := rfl
@[simp] theorem State.makeReady_events (g : Generator) (s : State) : (s.makeReady g).events = s.events := rfl
@[simp] theorem State.makeReady_reads (g : Generator) (s : State) : (s.makeReady g).reads = s.reads := rfl
@[simp] theorem State.makeReady_freeCount (g : Generator) (s : State) : (s.makeReady g).freeCount = s.freeCount := rfl

/-! ### `State.putGenerator` -/

@[simp] theorem State.putGenerator_gen (g : Generator) (s : State) : (s.putGenerator g).gen = some g := rfl
@[simp] theorem State.putGenerator_status (g : Generator) (s : State) : (s.putGenerator g).status = s.status := rfl
@[simp] theorem State.putGenerator_arg0 (g : Generator) (s : State) : (s.putGenerator g).arg0 = s.arg0 := rfl
@[simp] theorem State.putGenerator_arg1 (g : Generator) (s : State) : (s.putGenerator g).arg1 = s.arg1 := rfl
@[simp] theorem State.putGenerator_resLo (g : Generator) (s : State) : (s.putGenerator g).resLo = s.resLo := rfl
@[simp] theorem State.putGenerator_resHi (g : Generator) (s : State) : (s.putGenerator g).resHi = s.resHi := rfl
@[simp] theorem State.putGenerator_obytes (g : Generator) (s : State) : (s.putGenerator g).obytes = s.obytes := rfl
@[simp] theorem State.putGenerator_inFlight (g : Generator) (s : State) : (s.putGenerator g).inFlight = s.inFlight := rfl
@[simp] theorem State.putGenerator_timeLatch (g : Generator) (s : State) : (s.putGenerator g).timeLatch = s.timeLatch := rfl
@[simp] theorem State.putGenerator_timeNext (g : Generator) (s : State) : (s.putGenerator g).timeNext = s.timeNext := rfl
@[simp] theorem State.putGenerator_events (g : Generator) (s : State) : (s.putGenerator g).events = s.events := rfl
@[simp] theorem State.putGenerator_reads (g : Generator) (s : State) : (s.putGenerator g).reads = s.reads := rfl
@[simp] theorem State.putGenerator_freeCount (g : Generator) (s : State) : (s.putGenerator g).freeCount = s.freeCount := rfl

/-! ### `State.putResult64` -/

@[simp] theorem State.putResult64_gen (d : DWord) (s : State) : (s.putResult64 d).gen = s.gen := rfl
@[simp] theorem State.putResult64_status (d : DWord) (s : State) : (s.putResult64 d).status = s.status := rfl
@[simp] theorem State.putResult64_arg0 (d : DWord) (s : State) : (s.putResult64 d).arg0 = s.arg0 := rfl
@[simp] theorem State.putResult64_arg1 (d : DWord) (s : State) : (s.putResult64 d).arg1 = s.arg1 := rfl
@[simp] theorem State.putResult64_resLo (d : DWord) (s : State) : (s.putResult64 d).resLo = lowWord d := rfl
@[simp] theorem State.putResult64_resHi (d : DWord) (s : State) : (s.putResult64 d).resHi = highWord d := rfl
@[simp] theorem State.putResult64_obytes (d : DWord) (s : State) : (s.putResult64 d).obytes = s.obytes := rfl
@[simp] theorem State.putResult64_inFlight (d : DWord) (s : State) : (s.putResult64 d).inFlight = s.inFlight := rfl
@[simp] theorem State.putResult64_timeLatch (d : DWord) (s : State) : (s.putResult64 d).timeLatch = s.timeLatch := rfl
@[simp] theorem State.putResult64_timeNext (d : DWord) (s : State) : (s.putResult64 d).timeNext = s.timeNext := rfl
@[simp] theorem State.putResult64_events (d : DWord) (s : State) : (s.putResult64 d).events = s.events := rfl
@[simp] theorem State.putResult64_reads (d : DWord) (s : State) : (s.putResult64 d).reads = s.reads := rfl
@[simp] theorem State.putResult64_freeCount (d : DWord) (s : State) : (s.putResult64 d).freeCount = s.freeCount := rfl

/-! ### `State.putResult32` -/

@[simp] theorem State.putResult32_gen (w : Word) (s : State) : (s.putResult32 w).gen = s.gen := rfl
@[simp] theorem State.putResult32_status (w : Word) (s : State) : (s.putResult32 w).status = s.status := rfl
@[simp] theorem State.putResult32_arg0 (w : Word) (s : State) : (s.putResult32 w).arg0 = s.arg0 := rfl
@[simp] theorem State.putResult32_arg1 (w : Word) (s : State) : (s.putResult32 w).arg1 = s.arg1 := rfl
@[simp] theorem State.putResult32_resLo (w : Word) (s : State) : (s.putResult32 w).resLo = w := rfl
@[simp] theorem State.putResult32_resHi (w : Word) (s : State) : (s.putResult32 w).resHi = 0 := rfl
@[simp] theorem State.putResult32_obytes (w : Word) (s : State) : (s.putResult32 w).obytes = s.obytes := rfl
@[simp] theorem State.putResult32_inFlight (w : Word) (s : State) : (s.putResult32 w).inFlight = s.inFlight := rfl
@[simp] theorem State.putResult32_timeLatch (w : Word) (s : State) : (s.putResult32 w).timeLatch = s.timeLatch := rfl
@[simp] theorem State.putResult32_timeNext (w : Word) (s : State) : (s.putResult32 w).timeNext = s.timeNext := rfl
@[simp] theorem State.putResult32_events (w : Word) (s : State) : (s.putResult32 w).events = s.events := rfl
@[simp] theorem State.putResult32_reads (w : Word) (s : State) : (s.putResult32 w).reads = s.reads := rfl
@[simp] theorem State.putResult32_freeCount (w : Word) (s : State) : (s.putResult32 w).freeCount = s.freeCount := rfl

/-! ### `State.emit` -/

@[simp] theorem State.emit_gen (bs : List StreamByte) (s : State) : (s.emit bs).gen = s.gen := rfl
@[simp] theorem State.emit_status (bs : List StreamByte) (s : State) : (s.emit bs).status = s.status := rfl
@[simp] theorem State.emit_arg0 (bs : List StreamByte) (s : State) : (s.emit bs).arg0 = s.arg0 := rfl
@[simp] theorem State.emit_arg1 (bs : List StreamByte) (s : State) : (s.emit bs).arg1 = s.arg1 := rfl
@[simp] theorem State.emit_resLo (bs : List StreamByte) (s : State) : (s.emit bs).resLo = s.resLo := rfl
@[simp] theorem State.emit_resHi (bs : List StreamByte) (s : State) : (s.emit bs).resHi = s.resHi := rfl
@[simp] theorem State.emit_obytes (bs : List StreamByte) (s : State) : (s.emit bs).obytes = s.obytes ++ bs := rfl
@[simp] theorem State.emit_inFlight (bs : List StreamByte) (s : State) : (s.emit bs).inFlight = s.inFlight := rfl
@[simp] theorem State.emit_timeLatch (bs : List StreamByte) (s : State) : (s.emit bs).timeLatch = s.timeLatch := rfl
@[simp] theorem State.emit_timeNext (bs : List StreamByte) (s : State) : (s.emit bs).timeNext = s.timeNext := rfl
@[simp] theorem State.emit_events (bs : List StreamByte) (s : State) : (s.emit bs).events = s.events := rfl
@[simp] theorem State.emit_reads (bs : List StreamByte) (s : State) : (s.emit bs).reads = s.reads := rfl
@[simp] theorem State.emit_freeCount (bs : List StreamByte) (s : State) : (s.emit bs).freeCount = s.freeCount := rfl

/-! ### `State.afterTimeIn`: only the port's fields change -/

@[simp] theorem State.afterTimeIn_gen (s : State) : s.afterTimeIn.gen = s.gen := by
  unfold State.afterTimeIn; split <;> rfl
@[simp] theorem State.afterTimeIn_status (s : State) : s.afterTimeIn.status = s.status := by
  unfold State.afterTimeIn; split <;> rfl
@[simp] theorem State.afterTimeIn_arg0 (s : State) : s.afterTimeIn.arg0 = s.arg0 := by
  unfold State.afterTimeIn; split <;> rfl
@[simp] theorem State.afterTimeIn_arg1 (s : State) : s.afterTimeIn.arg1 = s.arg1 := by
  unfold State.afterTimeIn; split <;> rfl
@[simp] theorem State.afterTimeIn_resLo (s : State) : s.afterTimeIn.resLo = s.resLo := by
  unfold State.afterTimeIn; split <;> rfl
@[simp] theorem State.afterTimeIn_resHi (s : State) : s.afterTimeIn.resHi = s.resHi := by
  unfold State.afterTimeIn; split <;> rfl
@[simp] theorem State.afterTimeIn_obytes (s : State) : s.afterTimeIn.obytes = s.obytes := by
  unfold State.afterTimeIn; split <;> rfl
@[simp] theorem State.afterTimeIn_inFlight (s : State) : s.afterTimeIn.inFlight = s.inFlight := by
  unfold State.afterTimeIn; split <;> rfl
@[simp] theorem State.afterTimeIn_events (s : State) : s.afterTimeIn.events = s.events := by
  unfold State.afterTimeIn; split <;> rfl
@[simp] theorem State.afterTimeIn_reads (s : State) : s.afterTimeIn.reads = s.reads := by
  unfold State.afterTimeIn; split <;> rfl
@[simp] theorem State.afterTimeIn_timeLatch (s : State) : s.afterTimeIn.timeLatch = none := by
  unfold State.afterTimeIn; split <;> simp_all

/-! ### `hostRead`, `resetCore`, `presentCommand` -/

@[simp] theorem hostRead_gen (r : HostReg) (s : State) : (hostRead r s).gen = s.gen := rfl
@[simp] theorem hostRead_status (r : HostReg) (s : State) : (hostRead r s).status = s.status := rfl
@[simp] theorem hostRead_arg0 (r : HostReg) (s : State) : (hostRead r s).arg0 = s.arg0 := rfl
@[simp] theorem hostRead_arg1 (r : HostReg) (s : State) : (hostRead r s).arg1 = s.arg1 := rfl
@[simp] theorem hostRead_resLo (r : HostReg) (s : State) : (hostRead r s).resLo = s.resLo := rfl
@[simp] theorem hostRead_resHi (r : HostReg) (s : State) : (hostRead r s).resHi = s.resHi := rfl
@[simp] theorem hostRead_obytes (r : HostReg) (s : State) : (hostRead r s).obytes = s.obytes := rfl
@[simp] theorem hostRead_inFlight (r : HostReg) (s : State) : (hostRead r s).inFlight = s.inFlight := rfl
@[simp] theorem hostRead_timeLatch (r : HostReg) (s : State) : (hostRead r s).timeLatch = s.timeLatch := rfl
@[simp] theorem hostRead_timeNext (r : HostReg) (s : State) : (hostRead r s).timeNext = s.timeNext := rfl
@[simp] theorem hostRead_events (r : HostReg) (s : State) : (hostRead r s).events = s.events := rfl
@[simp] theorem hostRead_reads (r : HostReg) (s : State) :
    (hostRead r s).reads = s.reads ++ [(r, hostReadValue r s)] := rfl
@[simp] theorem hostRead_freeCount (r : HostReg) (s : State) :
    (hostRead r s).freeCount = if s.status.busy then s.freeCount + 1 else s.freeCount := rfl

@[simp] theorem resetCore_gen (s : State) : (resetCore s).gen = none := rfl
@[simp] theorem resetCore_status (s : State) : (resetCore s).status = Status.zero := rfl
@[simp] theorem resetCore_arg0 (s : State) : (resetCore s).arg0 = 0 := rfl
@[simp] theorem resetCore_arg1 (s : State) : (resetCore s).arg1 = 0 := rfl
@[simp] theorem resetCore_resLo (s : State) : (resetCore s).resLo = 0 := rfl
@[simp] theorem resetCore_resHi (s : State) : (resetCore s).resHi = 0 := rfl
@[simp] theorem resetCore_obytes (s : State) : (resetCore s).obytes = s.obytes ++ abandonedBytes s := rfl
@[simp] theorem resetCore_inFlight (s : State) : (resetCore s).inFlight = none := rfl
@[simp] theorem resetCore_timeLatch (s : State) : (resetCore s).timeLatch = none := rfl
@[simp] theorem resetCore_timeNext (s : State) : (resetCore s).timeNext = s.timeNext := rfl
@[simp] theorem resetCore_events (s : State) : (resetCore s).events = s.events := rfl
@[simp] theorem resetCore_reads (s : State) : (resetCore s).reads = s.reads := rfl
@[simp] theorem resetCore_freeCount (s : State) : (resetCore s).freeCount = s.freeCount + 1 := rfl

@[simp] theorem presentCommand_gen (w : Word) (s : State) :
    (presentCommand w s).gen = s.gen := rfl
@[simp] theorem presentCommand_status (w : Word) (s : State) :
    (presentCommand w s).status = { s.status with busy := false } := rfl
@[simp] theorem presentCommand_arg0 (w : Word) (s : State) :
    (presentCommand w s).arg0 = s.arg0 := rfl
@[simp] theorem presentCommand_arg1 (w : Word) (s : State) :
    (presentCommand w s).arg1 = s.arg1 := rfl
@[simp] theorem presentCommand_resLo (w : Word) (s : State) :
    (presentCommand w s).resLo = s.resLo := rfl
@[simp] theorem presentCommand_resHi (w : Word) (s : State) :
    (presentCommand w s).resHi = s.resHi := rfl
@[simp] theorem presentCommand_obytes (w : Word) (s : State) :
    (presentCommand w s).obytes = s.obytes := rfl
@[simp] theorem presentCommand_inFlight (w : Word) (s : State) :
    (presentCommand w s).inFlight = none := rfl
@[simp] theorem presentCommand_timeLatch (w : Word) (s : State) :
    (presentCommand w s).timeLatch = none := rfl
@[simp] theorem presentCommand_timeNext (w : Word) (s : State) :
    (presentCommand w s).timeNext = s.timeNext := rfl
@[simp] theorem presentCommand_events (w : Word) (s : State) :
    (presentCommand w s).events = .write 0x00 w :: s.events := rfl
@[simp] theorem presentCommand_reads (w : Word) (s : State) :
    (presentCommand w s).reads = s.reads := rfl
@[simp] theorem presentCommand_freeCount (w : Word) (s : State) :
    (presentCommand w s).freeCount = s.freeCount := rfl

/-! ### The fields of `STATUS` -/

@[simp] theorem Status.accepted_rdy (st : Status) : st.accepted.rdy = st.rdy := rfl
@[simp] theorem Status.accepted_busy (st : Status) : st.accepted.busy = true := rfl
@[simp] theorem Status.accepted_fail (st : Status) : st.accepted.fail = st.fail := rfl
@[simp] theorem Status.accepted_eIllcmd (st : Status) : st.accepted.eIllcmd = st.eIllcmd := rfl
@[simp] theorem Status.accepted_eUnseeded (st : Status) : st.accepted.eUnseeded = st.eUnseeded := rfl
@[simp] theorem Status.accepted_eRange (st : Status) : st.accepted.eRange = st.eRange := rfl

@[simp] theorem Status.succeeded_rdy (st : Status) : st.succeeded.rdy = st.rdy := rfl
@[simp] theorem Status.succeeded_busy (st : Status) : st.succeeded.busy = false := rfl
@[simp] theorem Status.succeeded_fail (st : Status) : st.succeeded.fail = false := rfl
@[simp] theorem Status.succeeded_eIllcmd (st : Status) : st.succeeded.eIllcmd = st.eIllcmd := rfl
@[simp] theorem Status.succeeded_eUnseeded (st : Status) : st.succeeded.eUnseeded = st.eUnseeded := rfl
@[simp] theorem Status.succeeded_eRange (st : Status) : st.succeeded.eRange = st.eRange := rfl

@[simp] theorem Status.ready_rdy (st : Status) : st.ready.rdy = true := rfl
@[simp] theorem Status.ready_busy (st : Status) : st.ready.busy = st.busy := rfl
@[simp] theorem Status.ready_fail (st : Status) : st.ready.fail = st.fail := rfl
@[simp] theorem Status.ready_eIllcmd (st : Status) : st.ready.eIllcmd = st.eIllcmd := rfl
@[simp] theorem Status.ready_eUnseeded (st : Status) : st.ready.eUnseeded = st.eUnseeded := rfl
@[simp] theorem Status.ready_eRange (st : Status) : st.ready.eRange = st.eRange := rfl

@[simp] theorem Status.stickyCleared_rdy (st : Status) : st.stickyCleared.rdy = st.rdy := rfl
@[simp] theorem Status.stickyCleared_busy (st : Status) : st.stickyCleared.busy = st.busy := rfl
@[simp] theorem Status.stickyCleared_fail (st : Status) : st.stickyCleared.fail = st.fail := rfl
@[simp] theorem Status.stickyCleared_eIllcmd (st : Status) : st.stickyCleared.eIllcmd = false := rfl
@[simp] theorem Status.stickyCleared_eUnseeded (st : Status) : st.stickyCleared.eUnseeded = false := rfl
@[simp] theorem Status.stickyCleared_eRange (st : Status) : st.stickyCleared.eRange = false := rfl

@[simp] theorem Status.failed_rdy (c : Cause) (st : Status) :
    (st.failed c).rdy = st.rdy := by cases c <;> rfl
@[simp] theorem Status.failed_busy (c : Cause) (st : Status) :
    (st.failed c).busy = false := by cases c <;> rfl
@[simp] theorem Status.failed_fail (c : Cause) (st : Status) :
    (st.failed c).fail = true := by cases c <;> rfl
@[simp] theorem Status.failed_eIllcmd (c : Cause) (st : Status) :
    (st.failed c).eIllcmd = (st.eIllcmd || c == .illegalCommand) := by cases c <;> simp [Status.failed]
@[simp] theorem Status.failed_eUnseeded (c : Cause) (st : Status) :
    (st.failed c).eUnseeded = (st.eUnseeded || c == .unseeded) := by cases c <;> simp [Status.failed]
@[simp] theorem Status.failed_eRange (c : Cause) (st : Status) :
    (st.failed c).eRange = (st.eRange || c == .rangeOrder) := by cases c <;> simp [Status.failed]

end Sys2Proof.Machine
end

