-- ==== Sys2Proof/Laws/Ops.lean ====
section
/-! SUPPORT. What each shared operation can do, said once. -/

namespace Sys2Proof.Machine

/-! ### The state vector -/

@[simp] theorem StateVector.read_write_same (mt : StateVector) (i : Fin 624) (v : Word) :
    (mt.write i v).read i = v := by
  simp [StateVector.read, StateVector.write, Vector.get_eq_getElem]

theorem StateVector.read_write_other (mt : StateVector) {i j : Fin 624} (h : j ≠ i) (v : Word) :
    (mt.write i v).read j = mt.read j := by
  have : i.val ≠ j.val := fun e => h (Fin.ext e.symm)
  simp [StateVector.read, StateVector.write, Vector.get_eq_getElem, this]

theorem StateVector.read_eq_getElem (mt : StateVector) (i : Fin 624) : mt.read i = mt[i.val] := by
  simp [StateVector.read, Vector.get_eq_getElem]

theorem StateVector.ext_read {a b : StateVector} (h : ∀ i, a.read i = b.read i) : a = b := by
  refine Vector.ext fun i hi => ?_
  simpa [StateVector.read_eq_getElem] using h ⟨i, hi⟩

/-! ### The Unseeded check -/

variable {s t : State} {body : Generator → Host.Outcome State Fault Refusal}

theorem drawCommand_unseeded (h : s.status.rdy = false) :
    drawCommand s body = .next (s.raise .unseeded) := by
  simp [drawCommand, h]

theorem drawCommand_ready {g : Generator} (h : s.status.rdy = true) (hg : s.gen = some g) :
    drawCommand s body = body g := by
  simp [drawCommand, h, hg]

/-- A draw command that answers a next state failed as Unseeded, or its body ran on the generator. -/
theorem drawCommand_next_cases (h : drawCommand s body = .next t) :
    (s.status.rdy = false ∧ t = s.raise .unseeded) ∨
      ∃ g, s.status.rdy = true ∧ s.gen = some g ∧ body g = .next t := by
  unfold drawCommand at h
  split at h
  · rename_i hr
    split at h
    · rename_i g hg
      exact .inr ⟨g, hr, hg, h⟩
    · cases h
  · rename_i hr
    cases h
    exact .inl ⟨by simpa using hr, rfl⟩

/-! ### The time port -/

/-- One reading of `TIME_IN`: a held value, a driven value, or a free one; what was read is used up. -/
theorem timeIn_cases (s : State) :
    (∃ v, s.timeLatch = some v ∧ s.timeIn = v ∧ s.afterTimeIn = { s with timeLatch := none }) ∨
    (∃ v, s.timeLatch = none ∧ s.timeNext = some v ∧ s.timeIn = v ∧
      s.afterTimeIn = { s with timeNext := none }) ∨
    (s.timeLatch = none ∧ s.timeNext = none ∧ s.timeIn = Config.timeIn s.freeCount ∧
      s.afterTimeIn = { s with freeCount := s.freeCount + 1 }) := by
  unfold State.timeIn State.afterTimeIn
  cases hl : s.timeLatch with
  | some v => exact .inl ⟨v, rfl, rfl, rfl⟩
  | none =>
    cases hn : s.timeNext with
    | some v => exact .inr (.inl ⟨v, rfl, rfl, rfl, rfl⟩)
    | none => exact .inr (.inr ⟨rfl, rfl, rfl, rfl⟩)

end Sys2Proof.Machine
end

