-- ==== Sys2Proof/Laws/Twist.lean ====
section
/-! SUPPORT. What one iteration of the twist pass writes, and which words a prefix of the pass has
written. -/

namespace Sys2Proof.Machine

theorem twistStep_read_same (i : Fin 624) (mt : StateVector) :
    (twistStep i mt).read i =
      twistWord (mt.read (i + 397)) (intermediate (mt.read i) (mt.read (i + 1))) := by
  simp [twistStep]

theorem twistStep_read_other {i j : Fin 624} (h : j ≠ i) (mt : StateVector) :
    (twistStep i mt).read j = mt.read j := by
  simp [twistStep, StateVector.read_write_other _ h]

/-- A word whose turn has not come is the old one. -/
theorem twistUpTo_read_of_le {n : Nat} (hn : n ≤ 624) {j : Fin 624} (h : n ≤ j.val) (mt : StateVector) :
    (twistUpTo n mt).read j = mt.read j := by
  induction n with
  | zero => rfl
  | succ n ih =>
    have hne : j ≠ Fin.ofNat 624 n := by
      intro e
      have : j.val = n % 624 := by rw [e]; rfl
      omega
    rw [twistUpTo, twistStep_read_other hne, ih (by omega) (by omega)]

/-- A word whose turn has passed keeps its new value to the end of the pass. -/
theorem twistUpTo_read_stable {n m : Nat} (hm : m ≤ 624) (hnm : n ≤ m) {j : Fin 624} (h : j.val < n)
    (mt : StateVector) : (twistUpTo m mt).read j = (twistUpTo n mt).read j := by
  induction m with
  | zero => omega
  | succ m ih =>
    rcases Nat.lt_or_ge m n with hlt | hge
    · have : n = m + 1 := by omega
      rw [this]
    · have hne : j ≠ Fin.ofNat 624 m := by
        intro e
        have : j.val = m % 624 := by rw [e]; rfl
        omega
      rw [twistUpTo, twistStep_read_other hne, ih (by omega) hge]

end Sys2Proof.Machine
end

