-- ==== Sys2Proof/Laws/Extract.lean ====
section
/-! SUPPORT. The two cases of an extraction, and several extractions. -/

namespace Sys2Proof.Machine

theorem Generator.extract_of_lt (g : Generator) (h : g.idx.val < 624) :
    g.extract = (temper (g.mt.read ⟨g.idx.val, h⟩), ⟨g.mt, ⟨g.idx.val + 1, by omega⟩⟩) := by
  simp [Generator.extract, h, Generator.takeWord]

theorem Generator.extract_of_eq (g : Generator) (h : g.idx.val = 624) :
    g.extract = (temper ((twist g.mt).read 0), ⟨twist g.mt, 1⟩) := by
  have : ¬ g.idx.val < 624 := by omega
  simp only [Generator.extract, this, dif_neg, not_false_eq_true, Generator.takeWord, Generator.twisted]
  rfl

@[simp] theorem Generator.extractMany_zero (g : Generator) : g.extractMany 0 = ([], g) := rfl

theorem Generator.extractMany_succ (n : Nat) (g : Generator) :
    g.extractMany (n + 1) =
      (g.extract.1 :: (g.extract.2.extractMany n).1, (g.extract.2.extractMany n).2) := rfl

@[simp] theorem Generator.extractMany_length (n : Nat) (g : Generator) :
    (g.extractMany n).1.length = n := by
  induction n generalizing g with
  | zero => rfl
  | succ n ih => simp [Generator.extractMany_succ, ih]

/-- Extractions compose: `m` of them and then `n` are `m + n`. -/
theorem Generator.extractMany_add (m n : Nat) (g : Generator) :
    g.extractMany (m + n) =
      ((g.extractMany m).1 ++ ((g.extractMany m).2.extractMany n).1,
        ((g.extractMany m).2.extractMany n).2) := by
  induction m generalizing g with
  | zero => simp
  | succ m ih =>
    rw [Nat.add_right_comm, Generator.extractMany_succ, Generator.extractMany_succ, ih]
    rfl

end Sys2Proof.Machine
end

