-- ==== Sys2Proof/Laws/Exec.lean ====
section
/-! SUPPORT. What each command can answer, said once per command. -/

namespace Sys2Proof.Machine

variable {s t : State}

theorem execRaw_next_cases (h : execRaw s = .next t) :
    (s.status.rdy = false ∧ t = s.raise .unseeded) ∨
      ∃ g, s.status.rdy = true ∧ s.gen = some g ∧
        t = ((s.putGenerator g.extract.2).putResult32 g.extract.1).succeed := by
  rcases drawCommand_next_cases h with h | ⟨g, hr, hg, h⟩
  · exact .inl h
  · exact .inr ⟨g, hr, hg, by cases h; rfl⟩

theorem execNext_next_cases (h : execNext s = .next t) :
    (s.status.rdy = false ∧ t = s.raise .unseeded) ∨
      ∃ g, s.status.rdy = true ∧ s.gen = some g ∧
        t = ((s.putGenerator g.extract.2).putResult32 (g.extract.1 &&& nonnegMask)).succeed := by
  rcases drawCommand_next_cases h with h | ⟨g, hr, hg, h⟩
  · exact .inl h
  · exact .inr ⟨g, hr, hg, by cases h; rfl⟩

theorem execSample_next_cases (h : execSample s = .next t) :
    (s.status.rdy = false ∧ t = s.raise .unseeded) ∨
      ∃ g, s.status.rdy = true ∧ s.gen = some g ∧
        t = ((s.putGenerator g.extract.2).putResult64 (f64bits (unitDouble g.extract.1))).succeed := by
  rcases drawCommand_next_cases h with h | ⟨g, hr, hg, h⟩
  · exact .inl h
  · exact .inr ⟨g, hr, hg, by cases h; rfl⟩

theorem execRange_next_cases (h : execRange s = .next t) :
    (s.status.rdy = false ∧ t = s.raise .unseeded) ∨
      ∃ g, s.status.rdy = true ∧ s.gen = some g ∧
        ((rangeMax s < rangeMin s ∧ t = s.raise .rangeOrder) ∨
          (rangeMin s ≤ rangeMax s ∧
            t = ((s.putGenerator g.extract.2).putResult32
              (wordOfInt (rangeValue g.extract.1 (rangeMin s) (rangeMax s)))).succeed)) := by
  rcases drawCommand_next_cases h with h | ⟨g, hr, hg, h⟩
  · exact .inl h
  · refine .inr ⟨g, hr, hg, ?_⟩
    split at h <;> cases h
    · exact .inl ⟨by assumption, rfl⟩
    · exact .inr ⟨by omega, rfl⟩

theorem execFill_next_cases (h : execFill s = .next t) :
    (s.status.rdy = false ∧ t = s.raise .unseeded) ∨
      ∃ g, s.status.rdy = true ∧ s.gen = some g ∧
        t = ((s.putGenerator (g.extractMany (fillCount (fillLength s))).2).emit
          (fillStream (fillLength s) g)).succeed := by
  rcases drawCommand_next_cases h with h | ⟨g, hr, hg, h⟩
  · exact .inl h
  · exact .inr ⟨g, hr, hg, by cases h; rfl⟩

/-- No command is refused. -/
theorem exec_ne_refused (i : Instr) (s : State) (r : Refusal) : exec i s ≠ .refused r := by
  cases i <;>
    simp only [exec, execSeed, execSeedt, execClrerr, execRaw, execNext, execSample, execRange, execFill,
      drawCommand] <;>
    (repeat' split) <;> simp

end Sys2Proof.Machine
end

