-- ==== Sys2Proof/Laws/HostPort.lean ====
section
/-! SUPPORT. What one step can be. -/

namespace Sys2Proof.Machine

variable {s t : State}

theorem step_idle (h : s.events = []) : step s = .next s := by
  simp [step, nextEvent, h]

theorem step_event {e : Event} {rest : List Event} (h : s.events = e :: rest) :
    step s = performEvent e { s with events := rest } := by
  simp [step, nextEvent, h]

theorem commandOf_command {w : Word} {i : Instr} (h : decode w = .command i) : commandOf w = some i := by
  simp [commandOf, h]

theorem commandOf_illegal {w : Word} {why : IllegalWord} (h : decode w = .illegal why) :
    commandOf w = none := by
  simp [commandOf, h]

theorem runCommand_command {w : Word} {i : Instr} (h : decode w = .command i) (s : State) :
    runCommand w s = exec i s := by
  simp [runCommand, h]

theorem runCommand_illegal {w : Word} {why : IllegalWord} (h : decode w = .illegal why) (s : State) :
    runCommand w s = .next (s.raise .illegalCommand) := by
  simp [runCommand, h]

/-- A command word that is run is a command executed, or IllegalCommand. -/
theorem runCommand_next_cases {w : Word} (h : runCommand w s = .next t) :
    (∃ i, decode w = .command i ∧ exec i s = .next t) ∨
      (∃ why, decode w = .illegal why ∧ t = s.raise .illegalCommand) := by
  unfold runCommand at h
  split at h
  · exact .inl ⟨_, by assumption, h⟩
  · cases h
    exact .inr ⟨_, by assumption, rfl⟩

theorem acceptCommand_next_cases {w : Word} (h : acceptCommand w s = .next t) :
    s.status.busy = false ∧
      ((decode w = .command .seedt ∧
          t = { s.afterTimeIn with
                timeLatch := some s.timeIn, status := s.status.accepted, inFlight := some w }) ∨
        (decode w ≠ .command .seedt ∧
          t = { s with status := s.status.accepted, inFlight := some w })) := by
  unfold acceptCommand at h
  split at h
  · cases h
  · rename_i hb
    refine ⟨by simpa using hb, ?_⟩
    by_cases hd : decode w = .command .seedt
    · simp only [hd, if_true] at h
      cases h
      exact .inl ⟨hd, rfl⟩
    · simp only [hd, if_false] at h
      cases h
      exact .inr ⟨hd, rfl⟩

theorem completeCommand_next_cases (h : completeCommand s = .next t) :
    (s.inFlight = none ∧ t = s) ∨
      ∃ w, s.inFlight = some w ∧ runCommand w { s with inFlight := none } = .next t := by
  unfold completeCommand at h
  split at h
  · exact .inr ⟨_, by assumption, h⟩
  · cases h
    exact .inl ⟨by assumption, rfl⟩

/-- What one event can do when it answers a next state. -/
theorem performEvent_next_cases {e : Event} (h : performEvent e s = .next t) :
    (∃ off w, e = .write off w ∧ hostRegAt off = some .cmd ∧ s.status.busy = false ∧
        runCommand w s = .next t) ∨
    (∃ off v, e = .write off v ∧ hostRegAt off = some .arg0 ∧ s.status.busy = false ∧
        t = { s with arg0 := v }) ∨
    (∃ off v, e = .write off v ∧ hostRegAt off = some .arg1 ∧ s.status.busy = false ∧
        t = { s with arg1 := v }) ∨
    (∃ off v r, e = .write off v ∧ hostRegAt off = some r ∧ (r = .status ∨ r = .resLo ∨ r = .resHi) ∧
        t = s) ∨
    (∃ off r, e = .read off ∧ hostRegAt off = some r ∧ t = hostRead r s) ∨
    (e = .reset ∧ t = resetCore s) ∨
    (∃ v, e = .time v ∧ t = { s with timeNext := some v }) ∨
    (∃ w, e = .accept w ∧ acceptCommand w s = .next t) ∨
    (e = .complete ∧ completeCommand s = .next t) := by
  cases e with
  | write off v =>
    simp only [performEvent] at h
    cases hr : hostRegAt off with
    | none => rw [hr] at h; cases h
    | some r =>
      rw [hr] at h
      cases r <;> simp only [hostWrite] at h
      case cmd =>
        split at h
        · cases h
        · exact .inl ⟨off, v, rfl, hr, by simp_all, h⟩
      case arg0 =>
        split at h
        · cases h
        · cases h
          exact .inr (.inl ⟨off, v, rfl, hr, by simp_all, rfl⟩)
      case arg1 =>
        split at h
        · cases h
        · cases h
          exact .inr (.inr (.inl ⟨off, v, rfl, hr, by simp_all, rfl⟩))
      all_goals
        cases h
        exact .inr (.inr (.inr (.inl ⟨off, v, _, rfl, hr, by simp, rfl⟩)))
  | read off =>
    simp only [performEvent] at h
    cases hr : hostRegAt off with
    | none => rw [hr] at h; cases h
    | some r =>
      rw [hr] at h
      cases h
      simp [hr]
  | reset => cases h; simp
  | time v => cases h; simp
  | accept w => simp_all [performEvent]
  | complete => simp_all [performEvent]

end Sys2Proof.Machine
end

