-- ==== Sys2Proof/Laws/PerInstr.lean ====
section
/-! SUPPORT. Statements made for every command, one lemma per constructor of `Instr`. -/

namespace Sys2Proof.Laws.Encoding

/-- The command's word is of format `C`, is one of the words rule R121 lists, and decodes to the command
(30_encoding.md rules R45, R47, R49). -/
def Statement (i : Instr) : Prop :=
  fieldZERO (encode i) = 0 ∧ fieldOPC (encode i) = opcode i ∧ wellFormedWord (encode i) = true ∧
    decode (encode i) = .command i

theorem seed : Statement .seed := by unfold Statement; decide
theorem seedt : Statement .seedt := by unfold Statement; decide
theorem clrerr : Statement .clrerr := by unfold Statement; decide
theorem raw : Statement .raw := by unfold Statement; decide
theorem next : Statement .next := by unfold Statement; decide
theorem sample : Statement .sample := by unfold Statement; decide
theorem range : Statement .range := by unfold Statement; decide
theorem fill : Statement .fill := by unfold Statement; decide

end Sys2Proof.Laws.Encoding
end

