-- ==== Sys2Proof/Laws/Sampling.lean ====
section
/-! SUPPORT. The bytes of a FILL, one by one. -/

namespace Sys2Proof.Machine

/-- The extraction count of a FILL in the form `ceil(L/4)` is usually computed in. -/
theorem fillCount_eq (length : Nat) : fillCount length = (length + 3) / 4 := by
  unfold fillCount
  split <;> omega

theorem markLast_length (bs : List Byte) : (markLast bs).length = bs.length := by
  induction bs using markLast.induct <;> simp_all [markLast]

theorem markLast_data (bs : List Byte) : (markLast bs).map StreamByte.data = bs := by
  induction bs using markLast.induct <;> simp_all [markLast]

/-- The marker is on the byte at the end and on no other. -/
theorem markLast_last (bs : List Byte) (k : Nat) (b : StreamByte) (h : (markLast bs)[k]? = some b) :
    b.last = true ↔ k + 1 = bs.length := by
  induction bs using markLast.induct generalizing k with
  | case1 => simp [markLast] at h
  | case2 x =>
    cases k with
    | zero => simp [markLast] at h; subst h; simp
    | succ k => simp [markLast] at h
  | case3 x y bs ih =>
    cases k with
    | zero => simp [markLast] at h; subst h; simp
    | succ k =>
      rw [ih k (by simpa [markLast] using h)]
      simp

theorem flatMap_bytesBigEndian_length (ws : List Word) :
    (ws.flatMap bytesBigEndian).length = 4 * ws.length := by
  induction ws with
  | nil => rfl
  | cons w ws ih => simp [List.flatMap_cons, ih, bytesBigEndian]; omega

/-- Every word gives four bytes, so there are always enough for the length. -/
theorem fillStream_length (length : Nat) (g : Generator) : (fillStream length g).length = length := by
  rw [fillStream, markLast_length, fillBytes, List.length_take, flatMap_bytesBigEndian_length,
    Generator.extractMany_length, fillCount_eq]
  omega

end Sys2Proof.Machine
end

