-- ==== Sys2Proof/Laws/Seed.lean ====
section
/-! SUPPORT. The words of the seed recurrence, one by one. -/

namespace Sys2Proof.Machine

theorem seedWords_getElem_zero (n i : Nat) (p : Word) (h : 0 < (seedWords n i p).length) :
    (seedWords n i p)[0] = p := by
  cases n with
  | zero => simp [seedWords] at h
  | succ n => rfl

/-- Each word after the first comes from the one just before it. -/
theorem seedWords_getElem_succ (n i k : Nat) (p : Word) (h : k + 1 < (seedWords n i p).length) :
    (seedWords n i p)[k + 1] = seedNext ((seedWords n i p)[k]) (i + k + 1) := by
  induction k generalizing n i p with
  | zero =>
    cases n with
    | zero => simp [seedWords] at h
    | succ n => simp [seedWords, seedWords_getElem_zero]
  | succ k ih =>
    cases n with
    | zero => simp [seedWords] at h
    | succ n =>
      simp only [seedWords, List.length_cons, Nat.add_lt_add_iff_right] at h
      have := ih n (i + 1) (seedNext p (i + 1)) h
      simp only [seedWords, List.getElem_cons_succ, this]
      congr 1
      omega

theorem seedVector_getElem (s : Word) (k : Nat) (h : k < 624) :
    (seedVector s)[k] = (seedWords 624 0 s)[k]'(by rw [seedWords_length]; exact h) := by
  simp [seedVector]

end Sys2Proof.Machine
end

