-- ==== Sys2Proof/Tests/Slice0.lean ====
section
/-! SUPPORT. Tests on fixed values, each expected value taken from spec/, and for each statement with
hypotheses a witness that meets them. -/

namespace Sys2Proof.Tests

open Sys2Proof.Machine

/-! ### Small states and what is looked at in them -/

/-- A generator whose next word, and every other, is `w`. -/
def flatGen (w : Word) : Generator := ⟨Vector.replicate 624 w, 0⟩

/-- READY, idle, no flags, with the generator `flatGen w`. -/
def readyWith (w : Word) : State :=
  { State.reset with gen := some (flatGen w), status := { Status.zero with rdy := true } }

/-- The state after a step or a command, if it answered one. -/
def nextOf (o : Host.Outcome State Fault Refusal) : Option State :=
  match o with
  | .next s => some s
  | .fault _ => none
  | .refused _ => none

/-- The result registers, low and high, and `STATUS` after a command. -/
def resultOf (o : Host.Outcome State Fault Refusal) : Option (Word × Word × Word) :=
  (nextOf o).map fun s => (s.resLo, s.resHi, statusWord s.status)

/-- The cursor after a command. -/
def cursorOf (o : Host.Outcome State Fault Refusal) : Option Nat :=
  (nextOf o).bind fun s => s.gen.map fun g => g.idx.val

/-- The command in READY with the given operands. -/
def withArgs (a0 a1 : Word) (s : State) : State := { s with arg0 := a0, arg1 := a1 }

/-! ### Well-formedness: a word that fails each check is refused -/

/-- RAW with bit 8 set (rules R45, R47). -/
theorem test_ill_formed_reserved_bit : zeroFieldClear 0x110#32 = false ∧ wellFormedWord 0x110#32 = false := by
  decide

/-- Opcodes next to the listed ones, and 0x18 (rules R50, R121). -/
theorem test_ill_formed_opcode :
    opcodeListed 0x00#32 = false ∧ opcodeListed 0x04#32 = false ∧ opcodeListed 0x0F#32 = false ∧
    opcodeListed 0x15#32 = false ∧ opcodeListed 0x18#32 = false ∧ wellFormedWord 0xFF#32 = false := by
  decide

/-! ### Decoding: `OPC` written out bit by bit from rule R49, `ZERO` above it -/

theorem test_decode_seed : decode (0#24 ++ 0b00000001#8) = .command .seed := by decide
theorem test_decode_seedt : decode (0#24 ++ 0b00000010#8) = .command .seedt := by decide
theorem test_decode_clrerr : decode (0#24 ++ 0b00000011#8) = .command .clrerr := by decide
theorem test_decode_raw : decode (0#24 ++ 0b00010000#8) = .command .raw := by decide
theorem test_decode_next : decode (0#24 ++ 0b00010001#8) = .command .next := by decide
theorem test_decode_sample : decode (0#24 ++ 0b00010010#8) = .command .sample := by decide
theorem test_decode_range : decode (0#24 ++ 0b00010011#8) = .command .range := by decide
theorem test_decode_fill : decode (0#24 ++ 0b00010100#8) = .command .fill := by decide

/-- The reserved slot of `Next(maxValue)` and a set top bit (rules R50, R108; V60). -/
theorem test_decode_illegal :
    decode 0x18#32 = .illegal .delegatedNextMaxValue ∧ decode 0x80000010#32 = .illegal .reservedBitsSet ∧
    decode 0xFF#32 = .illegal .unlistedOpcode := by decide

/-- The encodings are the `match` column of rule R49. -/
theorem test_encode : [Instr.seed, .seedt, .clrerr, .raw, .next, .sample, .range, .fill].map encode =
    [0x01#32, 0x02#32, 0x03#32, 0x10#32, 0x11#32, 0x12#32, 0x13#32, 0x14#32] := by decide

/-- The opcode table's numbering: a full word, and the operand-free low byte alone. -/
theorem test_table_word : decodeTableWord 32 0x13 = some .range ∧ decodeTableWord 8 0x113 = some .range ∧
    decodeTableWord 32 0x113 = none := by decide

/-- A presented word runs as the first command after reset (V60: RAW in UNSEEDED gives STATUS 0x24). -/
theorem test_with_fetch_word :
    resultOf (step (State.reset.withFetchWord 32 0x10)) = some (0#32, 0#32, 0x24#32) := by decide +kernel

/-! ### Seeding -/

/-- V10, the row of seed 1: `mt[1]`, `mt[397]`, `mt[623]`; R62: STATUS 0x01. -/
theorem test_seed_one :
    (seedInit 1#32).mt.read 1 = 0x6C078966#32 ∧ (seedInit 1#32).mt.read 397 = 0xAAB7BE29#32 ∧
    (seedInit 1#32).mt.read 623 = 0x7B5687A5#32 ∧
    resultOf (exec .seed (withArgs 1#32 0#32 State.reset)) = some (0#32, 0#32, 0x01#32) := by decide +kernel

/-- V10, the row of seed 0xFFFFFFFF, where the product wraps and the shift gives 3. -/
theorem test_seed_wraps :
    (seedInit 0xFFFFFFFF#32).mt.read 1 = 0x4FE1DA6D#32 ∧ (seedInit 0xFFFFFFFF#32).mt.read 623 = 0xCB76E730#32 := by
  decide +kernel

/-- P4, row 7: `TIME 0x0000000100000001 ; SEEDT` seeds with the low 32 bits, 1 (V10: `mt[1]`), `idx = 624`. -/
theorem test_seedt_low_bits :
    ((nextOf (exec .seedt { State.reset with timeNext := some 0x100000001 })).bind State.gen).map
      (fun g => (g.mt.read 1, g.idx.val)) = some (0x6C078966#32, 624) := by decide +kernel

/-! ### The twist pass: two iterations of V22, seed 1, that V21 shows the wrong readings of -/

/-- Iteration 226 reads `old[623]`. -/
theorem test_twist_old_word : twistWord 0x7B5687A5#32 (intermediate 0x4A1213CD#32 0x804DFC5F#32) = 0xE278C955#32 := by
  decide

/-- Iteration 227 reads the rewritten word 0 (V21: the old one would give 0xE7A61B94). -/
theorem test_twist_new_word : (twistUpTo 228 (seedInit 1#32).mt).read 227 = 0x7B12610F#32 := by
  decide +kernel

/-! ### The draws -/

/-- V30, two rows. -/
theorem test_temper : temper 0x12345678#32 = 0x2B7E4A2D#32 ∧ temper 0x80000000#32 = 0x88102204#32 := by decide

/-- V60: RAW in UNSEEDED. -/
theorem test_raw_unseeded : resultOf (exec .raw State.reset) = some (0#32, 0#32, 0x24#32) := by decide +kernel

/-- V30, V60: a word 0x9CB47A9A gives V1's draw; from STATUS 0x45 the success leaves 0x41; `RES_HI` is cleared. -/
theorem test_raw :
    resultOf (exec .raw { readyWith 0x9CB47A9A#32 with
      resHi := 5#32, status := ⟨true, false, true, false, false, true⟩ }) =
      some (0x6AC1F425#32, 0#32, 0x41#32) ∧
    cursorOf (exec .raw (readyWith 0x9CB47A9A#32)) = some 1 := by decide +kernel

/-- V30, R91: the raw word 0x88102204 loses its sign bit only. -/
theorem test_next : resultOf (exec .next (readyWith 0x80000000#32)) = some (0x08102204#32, 0#32, 0x01#32) := by
  decide +kernel

/-- V40, row 3: raw 0xFF4780EB (a word of V20). -/
theorem test_next_negative : resultOf (exec .next (readyWith 0xB1D19108#32)) = some (0x7F4780EB#32, 0#32, 0x01#32) := by
  decide +kernel

/-- V41: raw 0x6AC1F425. -/
theorem test_sample : resultOf (exec .sample (readyWith 0x9CB47A9A#32)) = some (0x09400000#32, 0x3FDAB07D#32, 0x01#32) := by
  decide +kernel

/-- V41: the smallest nonzero value, the largest, a power of two, and zero. -/
theorem test_sample_bits :
    f64bits (unitDouble 0x00000001#32) = 0x3DF0000000000000#64 ∧
    f64bits (unitDouble 0xFFFFFFFF#32) = 0x3FEFFFFFFFE00000#64 ∧
    f64bits (unitDouble 0x80000000#32) = 0x3FE0000000000000#64 ∧
    f64bits (unitDouble 0x00000000#32) = 0x0000000000000000#64 := by decide +kernel

/-- V42, row 3: floor, not truncation, and no sign extension into `RES_HI`; V47: a bad order, STATUS 0x45. -/
theorem test_range :
    resultOf (exec .range (withArgs 0xFFFFFFFB#32 5#32 (readyWith 0x9CB47A9A#32))) =
      some (0xFFFFFFFF#32, 0#32, 0x01#32) ∧
    resultOf (exec .range (withArgs 5#32 0xFFFFFFFB#32 (readyWith 0x9CB47A9A#32))) =
      some (0#32, 0#32, 0x45#32) ∧
    cursorOf (exec .range (withArgs 5#32 0xFFFFFFFB#32 (readyWith 0x9CB47A9A#32))) = some 0 := by decide +kernel

/-- V44 (a tie to even, and just below 2^21), V45 row 2 (no wrapped difference), V46 rows 1 and 4 (two roundings). -/
theorem test_range_rounding :
    rangeValue 0xFFFFFFFF#32 2097152 2097153 = 2097153 ∧ rangeValue 0xFFFFFFFF#32 2097151 2097152 = 2097151 ∧
    rangeValue 0x80000000#32 (-2147483648) 2147483647 = -1 ∧
    rangeValue 0x58292DAF#32 536350288 1225448826 = 773660894 ∧
    rangeValue 0x03A8CB4C#32 (-2017634248) (-1402800157) = -2008845598 := by decide +kernel

/-- V50, row 5, with the same word twice: the second word is cut after one byte, which carries the marker. -/
theorem test_fill :
    (nextOf (exec .fill (withArgs 5#32 0#32 (readyWith 0x9CB47A9A#32)))).map (·.obytes) =
      some [⟨0x6A#8, false⟩, ⟨0xC1#8, false⟩, ⟨0xF4#8, false⟩, ⟨0x25#8, false⟩, ⟨0x6A#8, true⟩] ∧
    cursorOf (exec .fill (withArgs 5#32 0#32 (readyWith 0x9CB47A9A#32))) = some 2 := by decide +kernel

/-- V51: the extraction counts at the top of the range. -/
theorem test_fill_count : fillCount 0xFFFFFFFC = 0x3FFFFFFF ∧ fillCount 0xFFFFFFFD = 0x40000000 ∧
    fillCount 0xFFFFFFFF = 0x40000000 := by decide +kernel

/-! ### CLRERR, failures, the boundary -/

/-- V60: CLRERR from STATUS 0x75 leaves 0x01. -/
theorem test_clrerr :
    resultOf (exec .clrerr { readyWith 0#32 with status := ⟨true, false, true, true, true, true⟩ }) =
      some (0#32, 0#32, 0x01#32) := by decide +kernel

/-- V60: illegal words in UNSEEDED (0x14) and in READY (0x15). -/
theorem test_illegal_words :
    resultOf (runCommand 0x18#32 State.reset) = some (0#32, 0#32, 0x14#32) ∧
    resultOf (runCommand 0x110#32 State.reset) = some (0#32, 0#32, 0x14#32) ∧
    resultOf (runCommand 0x80000010#32 (readyWith 0#32)) = some (0#32, 0#32, 0x15#32) := by decide +kernel

/-- R142: a reset in the middle of a RAW leaves the reset state and no byte. -/
theorem test_reset_while_busy :
    (nextOf (step { readyWith 0#32 with
      status := ⟨true, true, false, false, false, false⟩, inFlight := some 0x10#32, resLo := 9#32,
      events := [.reset] })).map (fun s => (statusWord s.status, s.gen, s.resLo, s.obytes, s.inFlight)) =
      some (0#32, none, 0#32, [], none) := by decide +kernel

/-- R148: the host must not write `ARG0` while a command is in progress; R36: no register at 0x18. -/
theorem test_refusals :
    step { State.reset with
      status := { Status.zero with busy := true }, inFlight := some 0x10#32, events := [.write 0x04 1#32] } =
      .refused .writeWhileBusy ∧
    step { State.reset with events := [.read 0x18] } = .refused (.noSuchRegister 0x18) := ⟨rfl, rfl⟩

/-! ### Witnesses: states and operands that meet a statement's hypotheses, clause by clause -/

/-- READY with a command in progress. -/
def holding (w : Word) (s : State) : State :=
  { s with status := { s.status with busy := true }, inFlight := some w }

/-- The state with one event to come. -/
def facing (e : Event) (s : State) : State := { s with events := [e] }

theorem witness_EveryWordIsOneCommandOrIllegal :
    (0x100#32).toNat / 2 ^ 8 ≠ 0 ∧ (0xFFFFFFFF#32).toNat / 2 ^ 8 ≠ 0 ∧
    (0x15#32).toNat % 2 ^ 8 ∉ [0x01, 0x02, 0x03, 0x10, 0x11, 0x12, 0x13, 0x14] ∧
    ¬ ((0x14#32).toNat / 2 ^ 8 ≠ 0 ∨ (0x14#32).toNat % 2 ^ 8 ∉ [0x01, 0x02, 0x03, 0x10, 0x11, 0x12, 0x13, 0x14]) := by
  decide

theorem witness_StepRunsTheDecodedCommand :
    (facing (.write 0x00 0x14#32) State.reset).events = .write 0x00 0x14#32 :: [] ∧
    State.reset.status.busy = false ∧ decode 0x14#32 = .command .fill ∧
    decode 0x15#32 = .illegal .unlistedOpcode ∧ State.reset.events = [] ∧ decodeTableWord 32 0x01 = some .seed := by
  decide

theorem witness_SeedInitRecurrence : 1 ≤ (1 : Fin 624).val ∧ 1 ≤ (623 : Fin 624).val := by decide

theorem witness_SeedtCommand :
    State.reset.timeLatch = none ∧ State.reset.timeNext = none ∧
    ({ State.reset with timeNext := some 0 } : State).timeNext = some 0 := by decide

theorem witness_DrivenTimeSeedsNextSeedt : State.reset.status.busy = false ∧ State.reset.timeLatch = none := by decide

theorem witness_TwistReadsOldAndNewWords :
    (0 : Fin 624).val ≤ 226 ∧ (226 : Fin 624).val ≤ 226 ∧ 227 ≤ (227 : Fin 624).val ∧ (227 : Fin 624).val ≤ 622 ∧
    227 ≤ (622 : Fin 624).val ∧ (622 : Fin 624).val ≤ 622 := by decide

theorem witness_PassRunsEvery624Extractions :
    (flatGen 0#32).idx.val ≠ 624 ∧ (seedInit 0#32).idx.val = 624 ∧ 1 ≤ 1 ∧ 1 ≤ 625 := by decide

/-- The intermediate values are V30's, row 0x80000000. -/
theorem witness_TemperSteps :
    0x80100000 = (0x80000000#32).toNat ^^^ ((0x80000000#32).toNat / 2 ^ 11) ∧
    0x88100000 = 0x80100000 ^^^ ((0x80100000 * 2 ^ 7 % 2 ^ 32) &&& 0x9D2C5680) ∧
    0x88100000 = 0x88100000 ^^^ ((0x88100000 * 2 ^ 15 % 2 ^ 32) &&& 0xEFC60000) := by decide

theorem witness_ExtractReadsTempersAdvances :
    (flatGen 0#32).idx.val < 624 ∧ ({ flatGen 0#32 with idx := 623 } : Generator).idx.val < 624 ∧
    ({ flatGen 0#32 with idx := 624 } : Generator).idx.val = 624 := by decide

theorem witness_ReferenceSequenceOfSeedOne : (withArgs 1#32 0#32 State.reset).arg0 = 1#32 := by decide

theorem witness_DrawCommandExtractionCounts :
    isDraw .raw = true ∧ (readyWith 0#32).gen = some (flatGen 0#32) ∧
    (∃ t, exec .raw (readyWith 0#32) = .next t ∧ t.status.fail = false) ∧
    (∃ t, exec .range (withArgs 1#32 0#32 (readyWith 0#32)) = .next t ∧ t.status.fail = true) ∧
    (∃ t, exec .raw { State.reset with gen := some (flatGen 0#32) } = .next t ∧
      State.reset.status.rdy = false) :=
  ⟨rfl, rfl, ⟨_, rfl, rfl⟩, ⟨_, rfl, rfl⟩, ⟨_, rfl, rfl⟩⟩

theorem witness_RawCommandsWalkTheSequence :
    (readyWith 0#32).status.rdy = true ∧ (readyWith 0#32).gen = some (flatGen 0#32) := ⟨rfl, rfl⟩

/-- The hypotheses of RawCommand, NextCommand and SampleCommand, which are the same. -/
theorem witness_RawCommand_NextCommand_SampleCommand :
    (readyWith 0#32).status.rdy = true ∧ (readyWith 0#32).gen = some (flatGen 0#32) ∧
    State.reset.status.rdy = false := ⟨rfl, rfl, rfl⟩

theorem witness_NextMaximum : ∃ t, exec .next (readyWith 0x92CDB9B7#32) = .next t ∧ t.status.fail = false ∧
    t.resLo = 0x7FFFFFFF#32 := ⟨_, rfl, rfl, by decide +kernel⟩

theorem witness_SampleBitPacking :
    2 ^ 0 ≤ (1#32).toNat ∧ (1#32).toNat < 2 ^ (0 + 1) ∧
    2 ^ 31 ≤ (0xFFFFFFFF#32).toNat ∧ (0xFFFFFFFF#32).toNat < 2 ^ (31 + 1) := by decide

/-- 1 itself, and two ties: 2^53 + 1 (the even neighbour is below) and -(2^53 + 3) (it is above in magnitude). -/
theorem witness_RoundingIsNearestTiesToEven :
    ((1 : ℚ) ≠ 0 ∧ (2 : ℚ) ^ (0 : Int) ≤ |1| ∧ |(1 : ℚ)| < (2 : ℚ) ^ ((0 : Int) + 1)) ∧
    ((2 : ℚ) ^ (53 : Int) ≤ |9007199254740993| ∧ |(9007199254740993 : ℚ)| < (2 : ℚ) ^ ((53 : Int) + 1) ∧
      (4503599627370496 : Int) = ⌊|(9007199254740993 : ℚ)| / (2 : ℚ) ^ ((53 : Int) - 52)⌋ ∧
      (1 / 2 : ℚ) = |(9007199254740993 : ℚ)| / (2 : ℚ) ^ ((53 : Int) - 52) - (4503599627370496 : Int)) ∧
    ((-9007199254740995 : ℚ) < 0 ∧ |(-9007199254740995 : ℚ)| < (2 : ℚ) ^ ((53 : Int) + 1) ∧
      (4503599627370497 : Int) = ⌊|(-9007199254740995 : ℚ)| / (2 : ℚ) ^ ((53 : Int) - 52)⌋ ∧
      (4503599627370497 : Int) % 2 = 1) := by
  refine ⟨by norm_num, ⟨by norm_num, by norm_num, ?_, by norm_num⟩, ⟨by norm_num, by norm_num, ?_, by norm_num⟩⟩ <;>
    symm <;> rw [Int.floor_eq_iff] <;> norm_num [abs_of_neg]

theorem witness_RoundingIsNearest : |(2 ^ 53 : Int)| ≤ 2 ^ 53 ∧ |(-(2 ^ 53) : Int)| ≤ 2 ^ 53 := by decide

theorem witness_RangeCommand :
    (readyWith 0#32).status.rdy = true ∧ (readyWith 0#32).gen = some (flatGen 0#32) ∧
    (flatGen 0#32).extract.1 = 0#32 ∧
    (withArgs 0x80000000#32 0x7FFFFFFF#32 (readyWith 0#32)).arg0.toInt ≤
      (withArgs 0x80000000#32 0x7FFFFFFF#32 (readyWith 0#32)).arg1.toInt ∧
    (withArgs 7#32 7#32 (readyWith 0#32)).arg0 = (withArgs 7#32 7#32 (readyWith 0#32)).arg1 ∧
    (withArgs 1#32 0xFFFFFFFF#32 (readyWith 0#32)).arg1.toInt <
      (withArgs 1#32 0xFFFFFFFF#32 (readyWith 0#32)).arg0.toInt ∧
    State.reset.status.rdy = false := ⟨rfl, rfl, by decide +kernel, by decide, by decide, by decide, rfl⟩

theorem witness_RangeResultBounds :
    (-2 ^ 31 : Int) ≤ -2147483648 ∧ (-2147483648 : Int) ≤ 2147483647 ∧ (2147483647 : Int) < 2 ^ 31 := by decide

theorem witness_RangeExactRegion :
    (-2 ^ 20 : Int) ≤ -1048576 ∧ (-1048576 : Int) < 1048576 ∧ (1048576 : Int) ≤ 2 ^ 20 := by decide

theorem witness_RangeOrderFails :
    (readyWith 0#32).status.rdy = true ∧ (readyWith 0#32).gen = some (flatGen 0#32) ∧
    (withArgs 0x7FFFFFFF#32 0x80000000#32 (readyWith 0#32)).arg1.toInt <
      (withArgs 0x7FFFFFFF#32 0x80000000#32 (readyWith 0#32)).arg0.toInt := ⟨rfl, rfl, by decide⟩

/-- With `L = 5`: the bytes at both sides of the word boundary, and the words they come from. -/
theorem witness_FillCommand :
    (fillStream 5 (flatGen 0x9CB47A9A#32))[3]? = some ⟨0x25#8, false⟩ ∧
    (fillStream 5 (flatGen 0x9CB47A9A#32))[4]? = some ⟨0x6A#8, true⟩ ∧
    ((flatGen 0x9CB47A9A#32).extractMany ((5 + 3) / 4)).1[3 / 4]? = some 0x6AC1F425#32 ∧
    ((flatGen 0x9CB47A9A#32).extractMany ((5 + 3) / 4)).1[4 / 4]? = some 0x6AC1F425#32 ∧
    (readyWith 0x9CB47A9A#32).gen = some (flatGen 0x9CB47A9A#32) ∧
    (readyWith 0x9CB47A9A#32).status.rdy = true ∧ State.reset.status.rdy = false :=
  ⟨by decide +kernel, by decide +kernel, by decide +kernel, by decide +kernel, rfl, rfl, rfl⟩

theorem witness_FillZeroLength :
    (readyWith 0#32).arg0 = 0#32 ∧ (readyWith 0#32).status.rdy = true ∧
    (readyWith 0#32).gen = some (flatGen 0#32) ∧ State.reset.arg0 = 0#32 ∧ State.reset.status.rdy = false :=
  ⟨rfl, rfl, rfl, rfl, rfl⟩

theorem witness_FillCountIsExact : 0 < 2 ^ 32 ∧ 4294967295 < 2 ^ 32 := by decide

theorem witness_FillConsumesWholeWords :
    (withArgs 2#32 0#32 (readyWith 0#32)).arg0 = 2#32 ∧ (withArgs 2#32 0#32 (readyWith 0#32)).status.rdy = true ∧
    (withArgs 2#32 0#32 (readyWith 0#32)).gen = some (flatGen 0#32) ∧
    ∃ t, exec .fill (withArgs 2#32 0#32 (readyWith 0#32)) = .next t := ⟨rfl, rfl, rfl, _, rfl⟩

theorem witness_UnseededDrawFails :
    isDraw .fill = true ∧ State.reset.status.rdy = false ∧ isDraw .seed = false ∧
    ∃ t, exec .seed { State.reset with status := { Status.zero with eUnseeded := true } } = .next t ∧
      t.status.eUnseeded = true := ⟨rfl, rfl, rfl, _, rfl, rfl⟩

theorem witness_FailedCommandChangesOnlyFlags :
    (∃ t, runCommand 0x00#32 State.reset = .next t ∧ t.status.fail = true) ∧
    (∃ t, runCommand 0x10#32 State.reset = .next t ∧ t.status.fail = true) ∧
    (∃ t, runCommand 0x13#32 (withArgs 1#32 0#32 (readyWith 0#32)) = .next t ∧ t.status.fail = true) :=
  ⟨⟨_, rfl, rfl⟩, ⟨_, rfl, rfl⟩, ⟨_, rfl, rfl⟩⟩

theorem witness_WhatNeverFails :
    isDraw .clrerr = false ∧ isDraw .range = true ∧ (readyWith 0#32).status.rdy = true ∧
    (readyWith 0#32).gen = some (flatGen 0#32) ∧ (readyWith 0#32).arg0.toInt ≤ (readyWith 0#32).arg1.toInt :=
  ⟨rfl, rfl, rfl, rfl, by decide⟩

theorem witness_OneCauseByPriority :
    (∃ t, runCommand 0x18#32 State.reset = .next t ∧ wellFormedWord 0x18#32 = false) ∧
    (∃ t, runCommand 0x13#32 (withArgs 5#32 0xFFFFFFFB#32 State.reset) = .next t ∧
      decode 0x13#32 = .command .range ∧ isDraw .range = true ∧ State.reset.status.rdy = false) ∧
    (∃ t, runCommand 0x13#32 (withArgs 5#32 0xFFFFFFFB#32 (readyWith 0#32)) = .next t ∧
      (readyWith 0#32).status.rdy = true ∧ (0xFFFFFFFB#32).toInt < (5#32).toInt) ∧
    (∃ t, runCommand 0x13#32 (withArgs 5#32 5#32 (readyWith 0#32)) = .next t ∧ (5#32).toInt ≤ (5#32).toInt) :=
  ⟨⟨_, rfl, rfl⟩, ⟨_, rfl, rfl, rfl, rfl⟩, ⟨_, rfl, rfl, by decide⟩, ⟨_, rfl, by decide⟩⟩

/-- `FAIL` and a sticky flag that an event clears, and a command that fails. -/
theorem witness_FlagsClearedOnlyAsStated :
    (∃ t, step (facing (.write 0x00 0x03#32) { State.reset with status := ⟨false, false, true, true, true, true⟩ }) =
        .next t ∧ t.status.fail = false ∧ t.status.eIllcmd = false ∧ t.status.eUnseeded = false ∧
      t.status.eRange = false ∧ commandRun (.write 0x00 0x03#32) State.reset = some .clrerr) ∧
    (∃ t, step (facing .reset { State.reset with status := ⟨false, false, true, true, true, true⟩ }) = .next t ∧
      t.status.fail = false ∧ t.status.eIllcmd = false) ∧
    (∃ t, step (facing .complete (holding 0x10#32 State.reset)) = .next t ∧ t.status.fail = true ∧
      commandRun .complete (holding 0x10#32 State.reset) = some .raw) :=
  ⟨⟨_, rfl, rfl, rfl, rfl, rfl, rfl⟩, ⟨_, rfl, rfl, rfl⟩, ⟨_, rfl, rfl, rfl⟩⟩

theorem witness_ModeTransitions :
    (∃ t, step (facing (.write 0x00 0x01#32) State.reset) = .next t ∧ State.reset.status.rdy = false ∧
      t.status.rdy = true ∧ commandRun (.write 0x00 0x01#32) State.reset = some .seed) ∧
    (∃ t, step (facing .reset (readyWith 0#32)) = .next t ∧ (readyWith 0#32).status.rdy = true ∧
      t.status.rdy = false) := ⟨⟨_, rfl, rfl, rfl, rfl⟩, ⟨_, rfl, rfl, rfl⟩⟩

theorem witness_HostWriteRegisters : State.reset.status.busy = false := rfl

theorem witness_HostReadRegisters :
    State.reset.status.busy = false ∧ (∃ t, step (facing (.read 0x14) State.reset) = .next t) ∧
    (facing (.read 0x0C) (holding 0x10#32 State.reset)).events = .read 0x0C :: [] ∧
    (holding 0x10#32 State.reset).status.busy = true := ⟨rfl, ⟨_, rfl⟩, rfl, rfl⟩

theorem witness_NoWritesWhileBusy : (holding 0x10#32 State.reset).status.busy = true := rfl

theorem witness_OnlySixOffsetsAnswer :
    0x01 ∉ [0x00, 0x04, 0x08, 0x0C, 0x10, 0x14] ∧ 0x18 ∉ [0x00, 0x04, 0x08, 0x0C, 0x10, 0x14] := by decide

theorem witness_HeldCommandEqualsAtomicCommand :
    State.reset.status.busy = false ∧ State.reset.inFlight = none ∧ State.reset.timeLatch = none := ⟨rfl, rfl, rfl⟩

theorem witness_ResetInput :
    (facing .reset (readyWith 0#32)).events = .reset :: [] ∧ (readyWith 0#32).inFlight = none := ⟨rfl, rfl⟩

theorem witness_ResetAbandonsCommand :
    (∃ t, step (facing .reset (holding 0x10#32 (readyWith 0#32))) = .next t ∧ decode 0x10#32 ≠ .command .fill) ∧
    (∃ t u, step (facing .reset (holding 0x14#32 (withArgs 1#32 0#32 (readyWith 0#32)))) = .next t ∧
      exec .fill (facing .reset (holding 0x14#32 (withArgs 1#32 0#32 (readyWith 0#32)))) = .next u ∧
      u.obytes = [] ++ [⟨0x00#8, true⟩]) ∧
    decode 0x14#32 = .command .fill := by
  refine ⟨⟨_, rfl, by decide⟩, ⟨_, _, rfl, rfl, by decide +kernel⟩, by decide⟩

/-- A state in the middle of a SEEDT that meets the invariant. -/
theorem witness_inv_busy : Inv { holding 0x02#32 (readyWith 0#32) with timeLatch := some 7, events := [.complete] } where
  ready_iff_generator := rfl
  busy_iff_in_flight := rfl
  latch_only_for_seedt := fun _ => ⟨_, rfl, by decide⟩
  fail_has_cause := fun h => by simp [holding, readyWith, Status.zero] at h
  unseeded_no_result := fun h => by simp [holding, readyWith] at h
  range_order_only_ready := fun _ => rfl

/-- The hypotheses of EveryStepKeepsInvariant. -/
theorem witness_EveryStepKeepsInvariant : ∃ s t : State, Inv s ∧ step s = .next t ∧ s.status.busy = true :=
  ⟨_, _, witness_inv_busy, rfl, rfl⟩

/-- The hypotheses of NoStateRefusesCommands: a state with `BUSY = 0`, and one whose next access has no step. -/
theorem witness_NoStateRefusesCommands :
    (∃ s : State, Inv s ∧ s.status.busy = false) ∧
    (∃ s : State, Inv s ∧ step s = .refused (.noSuchRegister 0x18)) := by
  have h : Inv (facing (.read 0x18) State.reset) :=
    ⟨rfl, rfl, fun h => by simp [facing, State.reset] at h, fun h => by simp [facing, State.reset, Status.zero] at h,
      fun _ => ⟨rfl, rfl⟩, fun h => by simp [facing, State.reset, Status.zero] at h⟩
  exact ⟨⟨_, h, rfl⟩, ⟨_, h, rfl⟩⟩

theorem witness_ByteStreamOnlyGrows :
    ∃ t, step (facing (.write 0x00 0x14#32) (withArgs 1#32 0#32 (readyWith 0#32))) = .next t ∧
      t.obytes = [] ++ [⟨0x00#8, true⟩] := ⟨_, rfl, by decide +kernel⟩

theorem witness_VectorWrittenOnlyBySeedingAndTwist :
    (∃ t, step (facing (.write 0x00 0x01#32) State.reset) = .next t) ∧
    (∃ t, step (facing .complete (holding 0x10#32 (readyWith 0#32))) = .next t) ∧
    (∃ t, step (facing .reset (readyWith 0#32)) = .next t) := ⟨⟨_, rfl⟩, ⟨_, rfl⟩, ⟨_, rfl⟩⟩

/-- A read, a CLRERR and a reset while idle. -/
theorem witness_GeneratorHiddenFromHost :
    (readyWith 0#32).gen = some (flatGen 0#32) ∧ (readyWith 0#32).inFlight = none ∧
    (∃ t, step (facing (.read 0x10) (readyWith 0#32)) = .next t) ∧
    commandRun (.read 0x10) (readyWith 0#32) = none ∧
    (∃ t, step (facing (.write 0x00 0x03#32) (readyWith 0#32)) = .next t) ∧
    (∀ i, commandRun (.write 0x00 0x03#32) (readyWith 0#32) = some i → isDraw i = false) ∧
    (∃ t, step (facing .reset (readyWith 0#32)) = .next t) :=
  ⟨rfl, rfl, ⟨_, rfl⟩, rfl, ⟨_, rfl⟩, fun i h => by cases i <;> first | rfl | exact absurd h (by decide), ⟨_, rfl⟩⟩

/-- Every command answers a next state in READY. -/
theorem witness_CommandFrames : ∀ i : Instr, ∃ t, exec i (readyWith 0#32) = .next t ∧ t.status.fail = false := by
  intro i
  cases i <;> exact ⟨_, rfl, rfl⟩

theorem witness_VectorUnchangedWithoutPass :
    (flatGen 0#32).idx.val + 624 ≤ 624 ∧ isDraw .raw = true ∧ (readyWith 0#32).gen = some (flatGen 0#32) ∧
    (flatGen 0#32).idx.val + extractionCount .raw (readyWith 0#32) ≤ 624 ∧
    ∃ t h, exec .raw (readyWith 0#32) = .next t ∧ t.gen = some h :=
  ⟨by decide, rfl, rfl, by decide, _, _, rfl, rfl⟩

end Sys2Proof.Tests
end

/-! SUPPORT. The mode over commands and events (10_state.md rule R12). -/

namespace Sys2Proof.Machine

/-! ### Which events run a command word -/

theorem hostRegAt_eq_cmd_iff (offset : Nat) : hostRegAt offset = some .cmd ↔ offset = 0x00 := by
  unfold hostRegAt
  split <;> simp_all

/-- A write that reaches a register other than `CMD` runs no command. -/
theorem wordRun_write_other {offset : Nat} {r : HostReg} (h : hostRegAt offset = some r) (hr : r ≠ .cmd)
    (v : Word) (s : State) : wordRun (.write offset v) s = none := by
  have h0 : offset ≠ 0x00 := fun e => hr (by simpa [h] using (hostRegAt_eq_cmd_iff offset).2 e)
  simp [wordRun, h0]

/-- What one step on an event is, by the word it runs: that word is run; or it is a reset; or the core keeps
its generator, its stream and its status, where an acceptance sets `BUSY`. -/
theorem step_event_next_cases {s t : State} {e : Event} {rest : List Event} (he : s.events = e :: rest)
    (h : step s = .next t) :
    (∃ w f, wordRun e s = some w ∧ runCommand w { s with events := rest, inFlight := f } = .next t) ∨
    (e = .reset ∧ t = resetCore { s with events := rest }) ∨
    (e ≠ .reset ∧ wordRun e s = none ∧ t.gen = s.gen ∧ t.obytes = s.obytes ∧
      (t.status = s.status ∨ t.status = s.status.accepted)) := by
  rw [step_event he] at h
  rcases performEvent_next_cases h with ⟨off, w, rfl, hoff, -, hrun⟩ | ⟨off, v, rfl, hoff, -, rfl⟩ |
    ⟨off, v, rfl, hoff, -, rfl⟩ | ⟨off, v, r, rfl, hoff, hr, rfl⟩ | ⟨off, r, rfl, -, rfl⟩ | ⟨rfl, rfl⟩ |
    ⟨v, rfl, rfl⟩ | ⟨w, rfl, hacc⟩ | ⟨rfl, hcomp⟩
  · have h0 := (hostRegAt_eq_cmd_iff off).1 hoff
    exact .inl ⟨w, s.inFlight, by simp [wordRun, h0], hrun⟩
  · exact .inr (.inr ⟨by simp, wordRun_write_other hoff (by simp) v s, rfl, rfl, .inl rfl⟩)
  · exact .inr (.inr ⟨by simp, wordRun_write_other hoff (by simp) v s, rfl, rfl, .inl rfl⟩)
  · have hne : r ≠ .cmd := by rintro rfl; simp at hr
    exact .inr (.inr ⟨by simp, wordRun_write_other hoff hne v s, rfl, rfl, .inl rfl⟩)
  · exact .inr (.inr ⟨by simp, rfl, rfl, rfl, .inl rfl⟩)
  · exact .inr (.inl ⟨rfl, rfl⟩)
  · exact .inr (.inr ⟨by simp, rfl, rfl, rfl, .inl rfl⟩)
  · obtain ⟨-, ⟨-, rfl⟩ | ⟨-, rfl⟩⟩ := acceptCommand_next_cases hacc
    · exact .inr (.inr ⟨by simp, rfl, by simp, by simp, .inr rfl⟩)
    · exact .inr (.inr ⟨by simp, rfl, rfl, rfl, .inr rfl⟩)
  · rcases completeCommand_next_cases hcomp with ⟨hnone, rfl⟩ | ⟨w, hw, hrun⟩
    · exact .inr (.inr ⟨by simp, hnone, rfl, rfl, .inl rfl⟩)
    · exact .inl ⟨w, none, hw, hrun⟩

/-! ### The mode -/

theorem execSeed_next_rdy {s t : State} (h : execSeed s = .next t) : t.status.rdy = true := by
  cases h; rfl

theorem execSeedt_next_rdy {s t : State} (h : execSeedt s = .next t) : t.status.rdy = true := by
  cases h; rfl

/-- A command that does not seed keeps the mode, whether it succeeds or fails. -/
theorem exec_next_rdy_of_not_seeding {i : Instr} {s t : State} (hseed : i ≠ .seed) (hseedt : i ≠ .seedt)
    (h : exec i s = .next t) : t.status.rdy = s.status.rdy := by
  cases i with
  | seed => contradiction
  | seedt => contradiction
  | clrerr => cases h; rfl
  | raw => rcases execRaw_next_cases h with ⟨-, rfl⟩ | ⟨g, -, -, rfl⟩ <;> simp
  | next => rcases execNext_next_cases h with ⟨-, rfl⟩ | ⟨g, -, -, rfl⟩ <;> simp
  | sample => rcases execSample_next_cases h with ⟨-, rfl⟩ | ⟨g, -, -, rfl⟩ <;> simp
  | range =>
    rcases execRange_next_cases h with ⟨-, rfl⟩ | ⟨g, -, -, ⟨-, rfl⟩ | ⟨-, rfl⟩⟩ <;> simp
  | fill => rcases execFill_next_cases h with ⟨-, rfl⟩ | ⟨g, -, -, rfl⟩ <;> simp

/-- The mode after a command word: READY after SEED and SEEDT, and unchanged after any other word. -/
theorem runCommand_next_rdy {w : Word} {s t : State} (h : runCommand w s = .next t) :
    ((commandOf w = some .seed ∨ commandOf w = some .seedt) ∧ t.status.rdy = true) ∨
    (¬ (commandOf w = some .seed ∨ commandOf w = some .seedt) ∧ t.status.rdy = s.status.rdy) := by
  rcases runCommand_next_cases h with ⟨i, hd, hx⟩ | ⟨why, hd, rfl⟩
  · rw [commandOf_command hd]
    by_cases hseed : i = .seed
    · subst hseed
      exact .inl ⟨.inl rfl, execSeed_next_rdy hx⟩
    by_cases hseedt : i = .seedt
    · subst hseedt
      exact .inl ⟨.inr rfl, execSeedt_next_rdy hx⟩
    · exact .inr ⟨by simp [hseed, hseedt], exec_next_rdy_of_not_seeding hseed hseedt hx⟩
  · exact .inr ⟨by simp [commandOf_illegal hd], by simp⟩

/-- The mode after one event: READY after a seeding, UNSEEDED after a reset, unchanged after any other. -/
theorem step_event_next_rdy {s t : State} {e : Event} {rest : List Event} (he : s.events = e :: rest)
    (h : step s = .next t) :
    (e ≠ .reset ∧ (commandRun e s = some .seed ∨ commandRun e s = some .seedt) ∧ t.status.rdy = true) ∨
    (e = .reset ∧ commandRun e s = none ∧ t.status.rdy = false) ∨
    (e ≠ .reset ∧ ¬ (commandRun e s = some .seed ∨ commandRun e s = some .seedt) ∧
      t.status.rdy = s.status.rdy) := by
  rcases step_event_next_cases he h with ⟨w, f, hw, hrun⟩ | ⟨rfl, rfl⟩ | ⟨hne, hw, -, -, hst⟩
  · have hne : e ≠ .reset := by rintro rfl; cases hw
    have hcmd : commandRun e s = commandOf w := by simp [commandRun, hw]
    rw [hcmd]
    exact (runCommand_next_rdy hrun).imp (⟨hne, ·⟩) fun hkeep => .inr ⟨hne, hkeep⟩
  · exact .inr (.inl ⟨rfl, rfl, rfl⟩)
  · have hcmd : commandRun e s = none := by simp [commandRun, hw]
    exact .inr (.inr ⟨hne, by simp [hcmd], by rcases hst with hst | hst <;> simp [hst]⟩)

/-- Settles O41: each of the three cases of `step_event_next_rdy` gives the four clauses. -/
theorem modeTransitions : Obligations.ModeTransitions := by
  unfold Obligations.ModeTransitions
  intro s t e rest he h
  rcases step_event_next_rdy he h with ⟨hne, hseeding, hrdy⟩ | ⟨rfl, hnone, hrdy⟩ | ⟨hne, hnot, hkeep⟩
  · simp [hne, hseeding, hrdy]
  · simp [hnone, hrdy]
  · exact ⟨fun h0 h1 => by simp [hkeep, h0] at h1, fun h1 h0 => by simp [hkeep, h1] at h0, (absurd · hnot),
      (absurd · hne)⟩

end Sys2Proof.Machine

/-! SUPPORT. Which words are commands (30_encoding.md rules R45, R47, R50, R121). -/

namespace Sys2Proof.Machine

/-! ### The two fields of a word as numbers -/

theorem fieldZERO_toNat (w : Word) : (fieldZERO w).toNat = w.toNat / 2 ^ 8 := by
  have hw : w.toNat < 2 ^ 32 := w.isLt
  simp only [fieldZERO, BitVec.extractLsb'_toNat, Nat.shiftRight_eq_div_pow]
  omega

theorem fieldOPC_toNat (w : Word) : (fieldOPC w).toNat = w.toNat % 2 ^ 8 := by
  simp [fieldOPC, BitVec.extractLsb'_toNat]

theorem fieldZERO_eq_zero_iff (w : Word) : fieldZERO w = 0 ↔ w.toNat / 2 ^ 8 = 0 := by
  rw [← fieldZERO_toNat, ← BitVec.toNat_inj]
  rfl

/-- Rule R121's list holds the opcodes of the commands and nothing else. -/
theorem mem_listedOpcodes_iff (n : Nat) : n ∈ listedOpcodes ↔ ∃ i : Instr, n = (opcode i).toNat := by
  constructor
  · intro h
    simp only [listedOpcodes, List.mem_cons, List.not_mem_nil, or_false] at h
    rcases h with rfl | rfl | rfl | rfl | rfl | rfl | rfl | rfl
    exacts [⟨.seed, rfl⟩, ⟨.seedt, rfl⟩, ⟨.clrerr, rfl⟩, ⟨.raw, rfl⟩, ⟨.next, rfl⟩, ⟨.sample, rfl⟩,
      ⟨.range, rfl⟩, ⟨.fill, rfl⟩]
  · rintro ⟨i, rfl⟩
    cases i <;> decide

/-! ### When decoding gives a command -/

/-- The decoder, both ways: a word decodes to a command when `ZERO` is clear and `OPC` is the command's. -/
theorem decode_eq_command_iff (w : Word) (i : Instr) :
    decode w = .command i ↔ fieldZERO w = 0 ∧ fieldOPC w = opcode i := by
  constructor
  · intro h
    unfold decode at h
    split at h
    · cases h
    · rename_i hzero
      refine ⟨not_not.1 hzero, ?_⟩
      split at h <;> cases h <;> assumption
  · rintro ⟨hzero, hopc⟩
    simp only [decode, hzero, hopc]
    cases i <;> rfl

theorem exists_decode_command_iff (w : Word) :
    (∃ i : Instr, decode w = .command i) ↔ w.toNat / 2 ^ 8 = 0 ∧ w.toNat % 2 ^ 8 ∈ listedOpcodes := by
  simp only [decode_eq_command_iff, exists_and_left, fieldZERO_eq_zero_iff, mem_listedOpcodes_iff,
    ← fieldOPC_toNat, BitVec.toNat_inj]

/-- Decoding is total: a word that selects no command is illegal. -/
theorem exists_decode_illegal_of_no_command {w : Word} (h : ¬ ∃ i : Instr, decode w = .command i) :
    ∃ why : IllegalWord, decode w = .illegal why := by
  cases hd : decode w with
  | command i => exact absurd ⟨i, hd⟩ h
  | illegal why => exact ⟨why, rfl⟩

/-- Settles O3: the condition on the word is that it selects no command (`exists_decode_command_iff`); such a
word raises IllegalCommand, and any other runs the one command it decodes to. -/
theorem everyWordIsOneCommandOrIllegal : Obligations.EveryWordIsOneCommandOrIllegal := by
  unfold Obligations.EveryWordIsOneCommandOrIllegal
  intro w s
  have hillegal := not_congr (exists_decode_command_iff w)
  rw [not_and_or] at hillegal
  constructor
  · intro hw
    obtain ⟨why, hd⟩ := exists_decode_illegal_of_no_command (hillegal.2 hw)
    exact runCommand_illegal hd s
  · intro hw
    obtain ⟨i, hd⟩ := not_not.1 (mt hillegal.1 hw)
    refine ⟨i, ⟨hd, runCommand_command hd s⟩, ?_⟩
    rintro j ⟨hj, -⟩
    simpa [hd] using hj.symm

end Sys2Proof.Machine

/-! SUPPORT. What `SeedInit` and SEED leave (40_seed.md rules R60, R61, R62). -/

namespace Sys2Proof.Machine

/-! ### The seeded vector, word by word -/

/-- Rule R60's term in exact integers, reduced once. -/
theorem seedNext_toNat (p : Word) (i : Nat) :
    (seedNext p i).toNat = (1812433253 * (p.toNat ^^^ (p.toNat / 2 ^ 30)) + i) % 2 ^ 32 := by
  simp [seedNext, initMult, BitVec.toNat_mul, Nat.shiftRight_eq_div_pow]

@[simp] theorem seedInit_idx (seed : Word) : (seedInit seed).idx.val = 624 := rfl

@[simp] theorem seedInit_read_zero (seed : Word) : (seedInit seed).mt.read 0 = seed := by
  rw [StateVector.read_eq_getElem]
  exact (seedVector_getElem seed 0 (by decide)).trans (seedWords_getElem_zero 624 0 seed _)

/-- Every word after word 0 is the recurrence's term from the word before it. -/
theorem seedInit_read_of_pos (seed : Word) {i : Fin 624} (hi : 1 ≤ i.val) :
    (seedInit seed).mt.read i = seedNext ((seedInit seed).mt.read (i - 1)) i.val := by
  have hprev : (i - 1).val = i.val - 1 := Fin.val_sub_one_of_ne_zero (Fin.pos_iff_ne_zero.1 hi)
  obtain ⟨k, hk⟩ : ∃ k, i.val = k + 1 := ⟨i.val - 1, by omega⟩
  have hlt : k + 1 < 624 := hk ▸ i.isLt
  simp only [StateVector.read_eq_getElem, seedInit, hprev, hk, Nat.add_sub_cancel]
  rw [seedVector_getElem seed (k + 1) hlt, seedVector_getElem seed k (by omega), seedWords_getElem_succ,
    Nat.zero_add]

theorem seedInit_read_one (seed : Word) : (seedInit seed).mt.read 1 = seedNext seed 1 := by
  simpa using seedInit_read_of_pos seed (i := 1) (by decide)

theorem seedInit_read_two (seed : Word) : (seedInit seed).mt.read 2 = seedNext (seedNext seed 1) 2 := by
  rw [← seedInit_read_one]
  exact seedInit_read_of_pos seed (i := 2) (by decide)

/-- Word 0 is the seed, and where that is 0 the added index makes word 1 the word 1. -/
theorem seedInit_exists_read_ne_zero (seed : Word) : ∃ i : Fin 624, (seedInit seed).mt.read i ≠ 0#32 := by
  by_cases hseed : seed = 0#32
  · subst hseed
    exact ⟨1, by rw [seedInit_read_one]; decide⟩
  · exact ⟨0, by simpa using hseed⟩

/-- Settles O5: word 0, the term of the recurrence in exact integers, and the cursor. -/
theorem seedInitRecurrence : Obligations.SeedInitRecurrence := by
  unfold Obligations.SeedInitRecurrence
  intro seed
  refine ⟨seedInit_read_zero seed, fun i hi => ?_, seedInit_idx seed⟩
  rw [seedInit_read_of_pos seed hi, seedNext_toNat]

/-! ### The command SEED -/

/-- SEED's whole effect, from every state. -/
theorem exec_seed (s : State) :
    exec .seed s = .next { s with
      gen := some (seedInit s.arg0)
      status := { s.status with rdy := true, fail := false, busy := false } } := rfl

/-- Settles O6: SEED's effect is that of `exec_seed`; words 0 to 2 of seed 0 are the recurrence's first terms. -/
theorem seedingNeverFailsNorGivesZeroVector : Obligations.SeedingNeverFailsNorGivesZeroVector := by
  unfold Obligations.SeedingNeverFailsNorGivesZeroVector
  refine ⟨fun s => ⟨_, exec_seed s, rfl, rfl⟩, seedInit_exists_read_ne_zero, seedInit_read_zero 0#32, ?_, ?_⟩
  · rw [seedInit_read_one]
    decide
  · rw [seedInit_read_two]
    decide

/-- Settles O7: the word decodes by its two fields, and `exec_seed` is the equation asked for. -/
theorem seedCommand : Obligations.SeedCommand := by
  unfold Obligations.SeedCommand
  exact ⟨(decode_eq_command_iff _ _).2 ⟨by decide, by decide⟩, fun s => ⟨exec_seed s, seedInit_idx s.arg0⟩⟩

end Sys2Proof.Machine

/-! SUPPORT. `Temper` step by step and as a bijection, and what RAW writes (42_extract.md rules R80, R82, R84). -/

namespace Sys2Proof.Machine

/-! ### The two kinds of step in `Temper` -/

/-- Steps 1 and 4 of rule R80: a word XORed with its own right shift. -/
def xorShiftRight {w : Nat} (k : Nat) (y : BitVec w) : BitVec w := y ^^^ (y >>> k)

/-- Steps 2 and 3 of rule R80: a word XORed with its own left shift, of which the mask keeps some bits. -/
def xorShiftLeftMasked {w : Nat} (k : Nat) (mask y : BitVec w) : BitVec w := y ^^^ ((y <<< k) &&& mask)

theorem temper_eq_steps (x : Word) :
    temper x = xorShiftRight 18 (xorShiftLeftMasked 15 temperMaskC
      (xorShiftLeftMasked 7 temperMaskB (xorShiftRight 11 x))) := rfl

theorem xorShiftRight_toNat {w : Nat} (k : Nat) (y : BitVec w) :
    (xorShiftRight k y).toNat = y.toNat ^^^ (y.toNat / 2 ^ k) := by
  simp [xorShiftRight, Nat.shiftRight_eq_div_pow]

theorem xorShiftLeftMasked_toNat {w : Nat} (k : Nat) (mask y : BitVec w) :
    (xorShiftLeftMasked k mask y).toNat = y.toNat ^^^ ((y.toNat * 2 ^ k % 2 ^ w) &&& mask.toNat) := by
  simp [xorShiftLeftMasked, Nat.shiftLeft_eq]

/-- Settles O15: `Temper` is its four steps, and each of them is the exact-integer one. -/
theorem temperSteps : Obligations.TemperSteps := by
  unfold Obligations.TemperSteps
  rintro x y1 y2 y3 rfl rfl rfl
  simp [temper_eq_steps, xorShiftRight_toNat, xorShiftLeftMasked_toNat, temperMaskB, temperMaskC]

/-! ### `Temper` is a bijection -/

/-- The bits of `y` are found from bit `w - 1` down: each is XORed with a higher one. -/
theorem xorShiftRight_injective {w k : Nat} (hk : 0 < k) :
    Function.Injective (xorShiftRight k : BitVec w → BitVec w) := by
  intro x y h
  have hbit : ∀ d i : Nat, w ≤ i + d → x.getLsbD i = y.getLsbD i := by
    intro d
    induction d with
    | zero => exact fun i hi => by rw [BitVec.getLsbD_of_ge x i hi, BitVec.getLsbD_of_ge y i hi]
    | succ d ih =>
      intro i hi
      have hhigher : x.getLsbD (k + i) = y.getLsbD (k + i) := ih (k + i) (by omega)
      simpa [xorShiftRight, hhigher] using congrArg (BitVec.getLsbD · i) h
  exact BitVec.eq_of_getLsbD_eq fun i _ => hbit w i (by omega)

/-- The bits of `y` are found from bit 0 up: each is XORed with a lower one, or with 0. -/
theorem xorShiftLeftMasked_injective {w k : Nat} (hk : 0 < k) (mask : BitVec w) :
    Function.Injective (xorShiftLeftMasked k mask) := by
  intro x y h
  refine BitVec.eq_of_getLsbD_eq fun i => ?_
  induction i using Nat.strong_induction_on with
  | _ i ih =>
    intro hi
    have hi' := congrArg (BitVec.getLsbD · i) h
    by_cases hik : i < k
    · simpa [xorShiftLeftMasked, hik] using hi'
    · have hlower : x.getLsbD (i - k) = y.getLsbD (i - k) := ih (i - k) (by omega) (by omega)
      simpa [xorShiftLeftMasked, hlower] using hi'

theorem temper_injective : Function.Injective temper :=
  (xorShiftRight_injective (by decide)).comp <| (xorShiftLeftMasked_injective (by decide) _).comp <|
    (xorShiftLeftMasked_injective (by decide) _).comp (xorShiftRight_injective (by decide))

theorem temper_bijective : Function.Bijective temper := Finite.injective_iff_bijective.1 temper_injective

/-! ### Extraction -/

/-- Settles O17: the two cases of an extraction. -/
theorem extractReadsTempersAdvances : Obligations.ExtractReadsTempersAdvances := by
  unfold Obligations.ExtractReadsTempersAdvances
  intro g
  constructor
  · intro h
    simp [g.extract_of_lt h]
  · intro h
    simp [g.extract_of_eq h]

/-- Every word is the next raw word of some generator: the one whose words are all its preimage by `Temper`. -/
theorem Generator.exists_extract_eq (v : Word) : ∃ g : Generator, g.extract.1 = v := by
  obtain ⟨x, rfl⟩ := temper_bijective.surjective v
  refine ⟨⟨Vector.replicate 624 x, 0⟩, ?_⟩
  rw [Generator.extract_of_lt _ (Nat.zero_lt_succ 623)]
  simp [StateVector.read_eq_getElem]

/-! ### RAW -/

/-- Rule R122: in UNSEEDED every draw command fails and writes nothing but the flags. -/
theorem exec_draw_unseeded {i : Instr} {s : State} (hi : isDraw i = true) (h : s.status.rdy = false) :
    exec i s = .next { s with status := { s.status with fail := true, busy := false, eUnseeded := true } } := by
  cases i with
  | seed | seedt | clrerr => cases hi
  | raw | next | sample | range | fill => exact drawCommand_unseeded h

/-- RAW's whole effect in READY. -/
theorem exec_raw_ready {s : State} {g : Generator} (h : s.status.rdy = true) (hg : s.gen = some g) :
    exec .raw s = .next { s with
      gen := some g.extract.2
      resLo := g.extract.1
      resHi := 0x00000000#32
      status := { s.status with fail := false, busy := false } } := drawCommand_ready h hg

/-- Settles O21: in READY RAW delivers the next raw word, which can be any, for `Temper` is onto. -/
theorem rawCommand : Obligations.RawCommand := by
  unfold Obligations.RawCommand
  refine ⟨(decode_eq_command_iff _ _).2 ⟨by decide, by decide⟩, fun v => ?_, fun s =>
    ⟨fun g h hg => exec_raw_ready h hg, exec_draw_unseeded rfl⟩⟩
  obtain ⟨g, rfl⟩ := Generator.exists_extract_eq v
  exact ⟨{ State.reset with gen := some g, status := { Status.zero with rdy := true } }, _,
    exec_raw_ready rfl rfl, rfl, rfl⟩

end Sys2Proof.Machine

/-! SUPPORT. Rounding does not change an integer that binary64 holds (43_sampling.md rule R96). -/

namespace Sys2Proof.Machine

@[simp] theorem rne53_zero : rne53 0 = 0 := rfl

@[simp] theorem roundHalfEven_intCast (n : Int) : roundHalfEven n = n := by
  simp [roundHalfEven]

/-- A number that is a whole number of units in its last place is not changed by rounding. -/
theorem rne53_eq_self_of_whole_ulps {q : ℚ} {n : Int} (h : |q| = n * pow2 (floorLog2 |q| - 52)) :
    rne53 q = q := by
  by_cases hq : q = 0
  · simp [hq]
  have hulp := (pow2_pos (floorLog2 |q| - 52)).ne'
  have hsig : |q| / pow2 (floorLog2 |q| - 52) = n := (div_eq_iff hulp).2 h
  simp only [rne53, hq, if_false, hsig, roundHalfEven_intCast]
  rw [mul_assoc, ← h]
  split
  · rw [abs_of_neg ‹q < 0›]; ring
  · rw [abs_of_nonneg (not_lt.1 ‹¬ q < 0›)]; ring

/-- An integer of magnitude below `2^53` has exponent at most 52, so its unit in the last place divides 1. -/
theorem rne53_intCast {m : Int} (hm : |m| < 2 ^ 53) : rne53 m = m := by
  by_cases h0 : m = 0
  · simp [h0]
  have hpos : (0 : ℚ) < |(m : ℚ)| := abs_pos.2 (Int.cast_ne_zero.2 h0)
  have hle : floorLog2 |(m : ℚ)| ≤ 52 := by
    have hlt : pow2 (floorLog2 |(m : ℚ)|) < pow2 53 := by
      refine lt_of_le_of_lt (floorLog2_spec hpos).1 ?_
      rw [pow2_eq_zpow]
      exact_mod_cast hm
    rw [pow2_eq_zpow, pow2_eq_zpow, zpow_lt_zpow_iff_right₀ (by norm_num)] at hlt
    omega
  obtain ⟨k, hk⟩ := Int.eq_ofNat_of_zero_le (Int.sub_nonneg.2 hle)
  refine rne53_eq_self_of_whole_ulps (n := |m| * 2 ^ k) ?_
  have hcancel : (2 : ℚ) ^ k * pow2 (floorLog2 |(m : ℚ)| - 52) = 1 := by
    rw [pow2_eq_zpow, ← zpow_natCast, ← zpow_add₀ (by norm_num), ← hk]
    simp
  push_cast
  rw [mul_assoc, hcancel, mul_one]

end Sys2Proof.Machine

/-! SUPPORT. The pattern SAMPLE delivers, field by field, and its value (43_sampling.md rules R93 to R95). -/

namespace Sys2Proof.Machine

/-! ### The fields of a 64-bit pattern -/

theorem f64pattern_toNat (e : BitVec 11) (f : BitVec 52) :
    (BitVec.ofBool false ++ e ++ f).toNat = e.toNat * 2 ^ 52 + f.toNat := by
  rw [BitVec.toNat_append, BitVec.toNat_append, ← Nat.shiftLeft_add_eq_or_of_lt f.isLt, Nat.shiftLeft_eq]
  simp

/-- The number a positive pattern is, taken apart into its three fields (rule R95). -/
theorem f64_fields_of_toNat {d : DWord} {e f : Nat} (hd : d.toNat = e * 2 ^ 52 + f) (he : e < 2 ^ 11)
    (hf : f < 2 ^ 52) :
    d.getLsbD 63 = false ∧ (d.extractLsb' 52 11).toNat = e ∧ (d.extractLsb' 0 52).toNat = f := by
  refine ⟨Nat.testBit_lt_two_pow (by omega), ?_, ?_⟩
  · rw [BitVec.extractLsb'_toNat, Nat.shiftRight_eq_div_pow]
    omega
  · rw [BitVec.extractLsb'_toNat, Nat.shiftRight_eq_div_pow]
    omega

theorem f64value_of_toNat {d : DWord} {e f : Nat} (hd : d.toNat = e * 2 ^ 52 + f) (he0 : e ≠ 0)
    (he : e < 2 ^ 11) (hf : f < 2 ^ 52) :
    f64value d = pow2 ((e : Int) - 1023) * (1 + (f : ℚ) / pow2 52) := by
  obtain ⟨hsign, hexp, hfrac⟩ := f64_fields_of_toNat hd he hf
  simp only [f64value, hsign, hexp, hfrac, he0, Bool.false_eq_true, if_false, one_mul]

/-! ### SAMPLE's pattern for a nonzero word, with `p` the index of its highest 1 bit -/

section
variable {r : Word} {p : Nat} (hl : 2 ^ p ≤ r.toNat) (hu : r.toNat < 2 ^ (p + 1))

theorem unitDouble_eq_significand_mul (r : Word) (p : Nat) :
    unitDouble r = pow2 ((p : Int) - 32) * ((r.toNat : ℚ) / 2 ^ p) := by
  simp only [unitDouble, pow2_eq_zpow]
  rw [zpow_sub₀ (by norm_num), zpow_natCast]
  field_simp

include hl in
theorem topBit_le_31 : p ≤ 31 :=
  Nat.lt_succ_iff.1 ((Nat.pow_lt_pow_iff_right (by decide)).1 (hl.trans_lt r.isLt))

include hl hu in
theorem floorLog2_unitDouble : floorLog2 (unitDouble r) = (p : Int) - 32 := by
  have hl' : (2 : ℚ) ^ p ≤ r.toNat := by exact_mod_cast hl
  have hu' : (r.toNat : ℚ) < 2 ^ (p + 1) := by exact_mod_cast hu
  have hp : (0 : ℚ) < 2 ^ p := by positivity
  rw [unitDouble_eq_significand_mul r p]
  apply floorLog2_unique
  · exact le_mul_of_one_le_right (pow2_pos _).le ((one_le_div hp).2 hl')
  · rw [pow2_add]
    refine mul_lt_mul_of_pos_left ?_ (pow2_pos _)
    rw [div_lt_iff₀ hp, pow2_eq_zpow, zpow_one, ← pow_succ']
    exact hu'

include hl in
/-- The part of the significand after its leading 1, in units of the last place: `r` has at most 32 bits, so
it is a whole number. -/
theorem unitDouble_fraction :
    ((r.toNat : ℚ) / 2 ^ p - 1) * pow2 52 = ((r.toNat - 2 ^ p) * 2 ^ (52 - p) : Nat) := by
  have hp := topBit_le_31 hl
  rw [pow2_eq_zpow]
  push_cast [hl]
  rw [pow_sub₀ _ (by norm_num) (by omega)]
  field_simp
  norm_cast

include hl hu in
theorem unitDouble_fraction_lt : (r.toNat - 2 ^ p) * 2 ^ (52 - p) < 2 ^ 52 := by
  have hp := topBit_le_31 hl
  calc (r.toNat - 2 ^ p) * 2 ^ (52 - p) < 2 ^ p * 2 ^ (52 - p) :=
        Nat.mul_lt_mul_of_pos_right (by rw [pow_succ] at hu; omega) (by positivity)
    _ = 2 ^ 52 := by rw [← pow_add, Nat.add_sub_cancel' (by omega)]

include hl hu in
/-- Rule R94: the exponent field is `991 + p`, the fraction field the bits of `r` below its highest. -/
theorem f64bits_unitDouble_toNat :
    (f64bits (unitDouble r)).toNat = (991 + p) * 2 ^ 52 + (r.toNat - 2 ^ p) * 2 ^ (52 - p) := by
  have hp := topBit_le_31 hl
  have hpos : 0 < unitDouble r := by
    have : 0 < r.toNat := lt_of_lt_of_le (by positivity) hl
    exact div_pos (by exact_mod_cast this) (pow2_pos 32)
  have hsig : unitDouble r / pow2 ((p : Int) - 32) = r.toNat / 2 ^ p := by
    rw [unitDouble_eq_significand_mul r p, mul_div_cancel_left₀ _ (pow2_pos _).ne']
  have hexp : ((p : Int) - 32 + 1023).toNat = 991 + p := by omega
  simp only [f64bits, hpos.ne', if_false, abs_of_pos hpos, floorLog2_unitDouble hl hu, hsig,
    unitDouble_fraction hl, hexp, not_lt_of_gt hpos, decide_false, Int.floor_natCast, Int.toNat_natCast]
  rw [f64pattern_toNat, BitVec.toNat_ofNat, BitVec.toNat_ofNat, Nat.mod_eq_of_lt (by omega),
    Nat.mod_eq_of_lt (unitDouble_fraction_lt hl hu)]

end

/-! ### SAMPLE -/

/-- A word is 0, and so is its pattern, or it has a highest 1 bit `p`. -/
theorem unitDouble_zero_or_topBit (r : Word) :
    (unitDouble r = 0 ∧ f64bits (unitDouble r) = 0#64) ∨ ∃ p, 2 ^ p ≤ r.toNat ∧ r.toNat < 2 ^ (p + 1) := by
  by_cases hr : r.toNat = 0
  · have hu : unitDouble r = 0 := by simp [unitDouble, hr]
    exact .inl ⟨hu, by rw [hu]; rfl⟩
  · exact .inr ⟨r.toNat.log2, Nat.log2_self_le hr, Nat.lt_log2_self⟩

theorem unitDouble_nonneg (r : Word) : 0 ≤ unitDouble r := div_nonneg (Nat.cast_nonneg _) (pow2_pos 32).le

theorem unitDouble_lt_one (r : Word) : unitDouble r < 1 := by
  rw [unitDouble, div_lt_one (pow2_pos 32), pow2_eq_zpow]
  exact_mod_cast r.isLt

/-- SAMPLE's pattern has exactly the value it stands for. -/
theorem f64value_f64bits_unitDouble (r : Word) : f64value (f64bits (unitDouble r)) = unitDouble r := by
  rcases unitDouble_zero_or_topBit r with ⟨hzero, hbits⟩ | ⟨p, hl, hu⟩
  · rw [hbits, hzero]
    rfl
  · have hp := topBit_le_31 hl
    have hexp : ((991 + p : Nat) : Int) - 1023 = (p : Int) - 32 := by omega
    rw [f64value_of_toNat (f64bits_unitDouble_toNat hl hu) (by omega) (by omega) (unitDouble_fraction_lt hl hu),
      ← unitDouble_fraction hl, mul_div_cancel_right₀ _ (pow2_pos 52).ne', hexp, add_sub_cancel,
      ← unitDouble_eq_significand_mul]

/-- SAMPLE's pattern is positive, never infinite or NaN, never subnormal, and has 21 zero bits at its end, for
the fraction of a word with highest bit `p ≤ 31` is a multiple of `2 ^ (52 - p)`. -/
theorem f64bits_unitDouble_fields (r : Word) :
    (f64bits (unitDouble r)).getLsbD 63 = false ∧
    ((f64bits (unitDouble r)).extractLsb' 52 11).toNat ≠ 2047 ∧
    (((f64bits (unitDouble r)).extractLsb' 52 11).toNat = 0 → f64bits (unitDouble r) = 0#64) ∧
    (f64bits (unitDouble r)).toNat % 2 ^ 21 = 0 := by
  rcases unitDouble_zero_or_topBit r with ⟨-, hbits⟩ | ⟨p, hl, hu⟩
  · rw [hbits]
    decide
  · have hp := topBit_le_31 hl
    have hd := f64bits_unitDouble_toNat hl hu
    obtain ⟨hsign, hexp, -⟩ := f64_fields_of_toNat hd (by omega) (unitDouble_fraction_lt hl hu)
    have hlow : 2 ^ 21 ∣ (r.toNat - 2 ^ p) * 2 ^ (52 - p) := (pow_dvd_pow 2 (by omega)).mul_left _
    exact ⟨hsign, by omega, by omega, by omega⟩

/-- SAMPLE's whole effect in READY. -/
theorem exec_sample_ready {s : State} {g : Generator} (h : s.status.rdy = true) (hg : s.gen = some g) :
    exec .sample s = .next { s with
      gen := some g.extract.2
      resLo := (f64bits (unitDouble g.extract.1)).extractLsb' 0 32
      resHi := (f64bits (unitDouble g.extract.1)).extractLsb' 32 32
      status := { s.status with fail := false, busy := false } } := drawCommand_ready h hg

/-- Settles O24: the pattern is that of the unit-interval double, whose value is exact. -/
theorem sampleCommand : Obligations.SampleCommand := by
  unfold Obligations.SampleCommand
  refine ⟨(decode_eq_command_iff _ _).2 ⟨by decide, by decide⟩, fun s =>
    ⟨fun g h hg => ⟨_, exec_sample_ready h hg, ?_⟩, exec_draw_unseeded rfl⟩⟩
  rw [f64value_f64bits_unitDouble]
  exact ⟨by norm_num [unitDouble, pow2], unitDouble_nonneg _, unitDouble_lt_one _, f64bits_unitDouble_fields _⟩

end Sys2Proof.Machine

/-! SUPPORT. What NEXT and RANGE write (43_sampling.md rules R91, R92, R97, R100). -/

namespace Sys2Proof.Machine

/-! ### NEXT -/

/-- The mask clears bit 31 and keeps bits 30:0. -/
theorem and_nonnegMask_toNat (r : Word) : (r &&& nonnegMask).toNat = r.toNat % 2 ^ 31 := by
  rw [BitVec.toNat_and]
  exact Nat.and_two_pow_sub_one_eq_mod r.toNat 31

theorem and_nonnegMask_toNat_lt (r : Word) : (r &&& nonnegMask).toNat < 2 ^ 31 := by
  rw [and_nonnegMask_toNat]
  exact Nat.mod_lt _ (by decide)

/-- NEXT's whole effect in READY. -/
theorem exec_next_ready {s : State} {g : Generator} (h : s.status.rdy = true) (hg : s.gen = some g) :
    exec .next s = .next { s with
      gen := some g.extract.2
      resLo := g.extract.1 &&& nonnegMask
      resHi := 0x00000000#32
      status := { s.status with fail := false, busy := false } } := drawCommand_ready h hg

/-- Settles O22: the masked word is the raw word modulo `2^31`, so its sign bit is clear. -/
theorem nextCommand : Obligations.NextCommand := by
  unfold Obligations.NextCommand
  refine ⟨(decode_eq_command_iff _ _).2 ⟨by decide, by decide⟩, fun s =>
    ⟨fun g h hg => ⟨_, and_nonnegMask_toNat _, ?_, exec_next_ready h hg⟩, exec_draw_unseeded rfl⟩⟩
  have hlt := and_nonnegMask_toNat_lt g.extract.1
  exact BitVec.toInt_eq_toNat_of_lt (by omega)

/-- Settles O23: a NEXT that succeeded left a masked word, and the raw word `2^31 - 1`, which some generator
delivers, is its own. -/
theorem nextMaximum : Obligations.NextMaximum := by
  unfold Obligations.NextMaximum
  constructor
  · intro s t h hok
    rcases execNext_next_cases h with ⟨-, rfl⟩ | ⟨g, -, -, rfl⟩
    · simp at hok
    · exact Nat.le_of_lt_succ (and_nonnegMask_toNat_lt g.extract.1)
  · obtain ⟨g, hg⟩ := Generator.exists_extract_eq 0x7FFFFFFF#32
    refine ⟨{ State.reset with gen := some g, status := { Status.zero with rdy := true } }, _,
      exec_next_ready rfl rfl, rfl, ?_⟩
    simp [hg, nonnegMask]

/-! ### RANGE -/

theorem signed32_eq_toInt (v : Word) : signed32 v = v.toInt := by
  rw [signed32, BitVec.toInt_eq_toNat_cond]
  split <;> split <;> omega

theorem rangeMin_eq (s : State) : rangeMin s = s.arg0.toInt := signed32_eq_toInt s.arg0

theorem rangeMax_eq (s : State) : rangeMax s = s.arg1.toInt := signed32_eq_toInt s.arg1

/-- Rule R97's two corners: where the product is 0 the sum is the integer `min`, which binary64 holds. -/
theorem rangeValue_eq_min {r : Word} {min max : Int} (hmin : |min| < 2 ^ 53)
    (hprod : unitDouble r * ((max - min : Int) : ℚ) = 0) : rangeValue r min max = min := by
  simp only [rangeValue, hprod, rne53_zero, zero_add, rne53_intCast hmin, Int.floor_intCast]

theorem abs_toInt_lt (v : Word) : |v.toInt| < 2 ^ 53 := by
  have hl := BitVec.le_toInt v
  have hu := BitVec.toInt_lt (x := v)
  rw [abs_lt]
  omega

/-- RANGE's whole effect in READY with `min ≤ max`. -/
theorem exec_range_ready {s : State} {g : Generator} (h : s.status.rdy = true) (hg : s.gen = some g)
    (horder : s.arg0.toInt ≤ s.arg1.toInt) :
    exec .range s = .next { s with
      gen := some g.extract.2
      resLo := wordOfInt (rangeValue g.extract.1 s.arg0.toInt s.arg1.toInt)
      resHi := 0x00000000#32
      status := { s.status with fail := false, busy := false } } := by
  refine (drawCommand_ready h hg).trans ?_
  rw [rangeMin_eq, rangeMax_eq, if_neg (not_lt.2 horder)]
  rfl

/-- RANGE's whole effect in READY with `max < min`. -/
theorem exec_range_order_fails {s : State} {g : Generator} (h : s.status.rdy = true) (hg : s.gen = some g)
    (horder : s.arg1.toInt < s.arg0.toInt) :
    exec .range s = .next { s with status := { s.status with fail := true, busy := false, eRange := true } } := by
  refine (drawCommand_ready h hg).trans ?_
  rw [rangeMin_eq, rangeMax_eq, if_pos horder]
  rfl

/-- Settles O31: the order is checked before the extraction. -/
theorem rangeOrderFails : Obligations.RangeOrderFails := by
  unfold Obligations.RangeOrderFails
  exact fun s g h hg => exec_range_order_fails h hg

/-- Settles O28: the three outcomes of RANGE; the product is 0 where `min = max` and where `r = 0`. -/
theorem rangeCommand : Obligations.RangeCommand := by
  unfold Obligations.RangeCommand
  refine ⟨(decode_eq_command_iff _ _).2 ⟨by decide, by decide⟩, fun s =>
    ⟨fun g h hg horder => ⟨_, ?_, ?_, ?_, exec_range_ready h hg horder⟩,
      fun g h hg => exec_range_order_fails h hg, exec_draw_unseeded rfl⟩⟩
  · simp only [rangeValue, unitDouble, pow2_eq_zpow]
    norm_cast
  · intro heq
    exact rangeValue_eq_min (abs_toInt_lt _) (by simp [heq])
  · intro hr
    exact rangeValue_eq_min (abs_toInt_lt _) (by simp [hr, unitDouble])

end Sys2Proof.Machine

/-! SUPPORT. The bytes of a FILL, and the extractions of every draw command (43_sampling.md rules R90, R102, R104). -/

namespace Sys2Proof.Machine

/-! ### FILL -/

/-- Byte `k` of the words' bytes comes from word `k / 4`; number 0 of a word's four is its most significant. -/
theorem flatMap_bytesBigEndian_getElem? (ws : List Word) (k : Nat) :
    (ws.flatMap bytesBigEndian)[k]? = ws[k / 4]?.map fun w => w.extractLsb' (8 * (3 - k % 4)) 8 := by
  induction ws generalizing k with
  | nil => simp
  | cons w ws ih =>
    rcases Nat.lt_or_ge k 4 with hk | hk
    · interval_cases k <;> rfl
    · obtain ⟨j, rfl⟩ := Nat.exists_eq_add_of_le' hk
      simpa [bytesBigEndian] using ih j

theorem extractLsb'_byte_toNat (w : Word) (j : Nat) :
    (w.extractLsb' (8 * j) 8).toNat = w.toNat / 256 ^ j % 256 := by
  rw [BitVec.extractLsb'_toNat, Nat.shiftRight_eq_div_pow, pow_mul]
  rfl

/-- A byte of a FILL is the byte of its words that the position says (rule R102). -/
theorem fillStream_getElem?_data {length k : Nat} {g : Generator} {b : StreamByte} {w : Word}
    (hb : (fillStream length g)[k]? = some b) (hw : (g.extractMany (fillCount length)).1[k / 4]? = some w) :
    b.data.toNat = w.toNat / 256 ^ (3 - k % 4) % 256 := by
  have hdata : (fillBytes length (g.extractMany (fillCount length)).1)[k]? = some b.data := by
    rw [← markLast_data (fillBytes length _), List.getElem?_map]
    exact congrArg (Option.map StreamByte.data) hb
  rw [fillBytes, List.getElem?_take, flatMap_bytesBigEndian_getElem?, hw, Option.map_some] at hdata
  split at hdata
  · rw [← Option.some.inj hdata, extractLsb'_byte_toNat]
  · cases hdata

/-- The marker of a FILL is on its last byte and on no other (rule R102). -/
theorem fillStream_getElem?_last {length k : Nat} {g : Generator} {b : StreamByte}
    (hb : (fillStream length g)[k]? = some b) : b.last = true ↔ k + 1 = length := by
  have hlen : (fillBytes length (g.extractMany (fillCount length)).1).length = length := by
    rw [← markLast_length]
    exact fillStream_length length g
  rw [markLast_last _ k b hb, hlen]

/-- FILL's whole effect in READY. -/
theorem exec_fill_ready {s : State} {g : Generator} (h : s.status.rdy = true) (hg : s.gen = some g) :
    exec .fill s = .next { s with
      gen := some (g.extractMany (fillCount s.arg0.toNat)).2
      obytes := s.obytes ++ fillStream s.arg0.toNat g
      status := { s.status with fail := false, busy := false } } := drawCommand_ready h hg

/-- Settles O32: the extraction count is `ceil(L/4)`, and the stream has `L` bytes, each with its place and
its marker. -/
theorem fillCommand : Obligations.FillCommand := by
  unfold Obligations.FillCommand
  refine ⟨(decode_eq_command_iff _ _).2 ⟨by decide, by decide⟩, fun s => ⟨?_, exec_draw_unseeded rfl⟩⟩
  rintro g h hg ws rfl
  rw [← fillCount_eq]
  refine ⟨_, exec_fill_ready h hg, fillStream_length _ g, fun k b w hb hw =>
    ⟨fillStream_getElem?_data hb hw, fillStream_getElem?_last hb⟩, fun k hk => ?_⟩
  rw [Generator.extractMany_length, fillCount_eq]
  omega

/-- Settles O33: with `L = 0` there is no extraction and no byte, so `exec_fill_ready` leaves only the flags. -/
theorem fillZeroLength : Obligations.FillZeroLength := by
  unfold Obligations.FillZeroLength
  intro s hzero
  refine ⟨fun g h hg => ?_, exec_draw_unseeded rfl⟩
  have hstream : fillStream 0 g = [] := List.eq_nil_of_length_eq_zero (fillStream_length 0 g)
  rw [exec_fill_ready h hg, hzero]
  simp [fillCount, hstream, ← hg]

/-! ### Every draw command -/

/-- What a draw command that answers a next state has done: it failed and kept the generator, or it succeeded
and left the generator after its number of extractions (rule R90). -/
theorem exec_draw_next_cases {i : Instr} {s t : State} (hi : isDraw i = true) (h : exec i s = .next t) :
    (∃ c, t = s.raise c) ∨
    (t.status.fail = false ∧
      ∃ g, s.gen = some g ∧ t.gen = some (g.extractMany (extractionCount i s)).2) := by
  cases i with
  | seed | seedt | clrerr => cases hi
  | raw | next | sample =>
    rcases drawCommand_next_cases h with ⟨-, ht⟩ | ⟨g, -, hg, hbody⟩
    · exact .inl ⟨_, ht⟩
    · cases hbody
      exact .inr ⟨rfl, g, hg, rfl⟩
  | range =>
    rcases execRange_next_cases h with ⟨-, ht⟩ | ⟨g, -, hg, ⟨-, ht⟩ | ⟨-, rfl⟩⟩
    · exact .inl ⟨_, ht⟩
    · exact .inl ⟨_, ht⟩
    · exact .inr ⟨rfl, g, hg, rfl⟩
  | fill =>
    rcases execFill_next_cases h with ⟨-, ht⟩ | ⟨g, -, hg, rfl⟩
    · exact .inl ⟨_, ht⟩
    · refine .inr ⟨rfl, g, hg, ?_⟩
      rw [extractionCount, ← fillCount_eq]
      rfl

/-- Settles O19: a failure keeps the generator, a success makes the extractions of rule R90, and with `RDY = 0`
the outcome is the Unseeded failure. -/
theorem drawCommandExtractionCounts : Obligations.DrawCommandExtractionCounts := by
  unfold Obligations.DrawCommandExtractionCounts
  intro i s t g hi hg h
  have hunseeded : s.status.rdy = false →
      t = { s with status := { s.status with fail := true, busy := false, eUnseeded := true } } := fun hr => by
    simpa [h] using exec_draw_unseeded hi hr
  rcases exec_draw_next_cases hi h with ⟨c, rfl⟩ | ⟨hok, g', hg', ht⟩
  · exact ⟨fun hok => by simp at hok, fun _ => rfl, hunseeded⟩
  · obtain rfl : g = g' := Option.some.inj (hg.symm.trans hg')
    exact ⟨fun _ => ht, fun hf => by simp [hok] at hf, hunseeded⟩

end Sys2Proof.Machine

/-! SUPPORT. CLRERR, and what a host write does to each register (44_control.md rules R110, R112). -/

namespace Sys2Proof.Machine

/-- CLRERR's whole effect, from every state. -/
theorem exec_clrerr (s : State) :
    exec .clrerr s = .next { s with
      status := { s.status with
        fail := false, busy := false, eIllcmd := false, eUnseeded := false, eRange := false } } := rfl

/-- Settles O42: the word decodes by its two fields, and `exec_clrerr` is the equation asked for. -/
theorem clrerrCommand : Obligations.ClrerrCommand := by
  unfold Obligations.ClrerrCommand
  exact ⟨(decode_eq_command_iff _ _).2 ⟨by decide, by decide⟩, exec_clrerr⟩

/-! ### Host writes, register by register -/

theorem hostWrite_cmd_idle {s : State} (h : s.status.busy = false) (v : Word) :
    hostWrite .cmd v s = runCommand v s := by
  simp [hostWrite, h]

theorem hostWrite_arg0_idle {s : State} (h : s.status.busy = false) (v : Word) :
    hostWrite .arg0 v s = .next { s with arg0 := v } := by
  simp [hostWrite, h]

theorem hostWrite_arg1_idle {s : State} (h : s.status.busy = false) (v : Word) :
    hostWrite .arg1 v s = .next { s with arg1 := v } := by
  simp [hostWrite, h]

@[simp] theorem hostWrite_status (v : Word) (s : State) : hostWrite .status v s = .next s := rfl

@[simp] theorem hostWrite_resLo (v : Word) (s : State) : hostWrite .resLo v s = .next s := rfl

@[simp] theorem hostWrite_resHi (v : Word) (s : State) : hostWrite .resHi v s = .next s := rfl

/-- A write whose offset is a register's is that register's write. -/
theorem step_write {offset : Nat} {r : HostReg} (hr : hostRegAt offset = some r) (s : State) (v : Word)
    (rest : List Event) :
    step { s with events := .write offset v :: rest } = hostWrite r v { s with events := rest } := by
  rw [step_event rfl]
  simp [performEvent, hr]

/-- Settles O43: each offset is its register's (`step_write`), and BUSY = 0 lets the writes to `CMD`, `ARG0` and
`ARG1` through. -/
theorem hostWriteRegisters : Obligations.HostWriteRegisters := by
  unfold Obligations.HostWriteRegisters
  intro s v rest hbusy
  have hidle : ({ s with events := rest } : State).status.busy = false := hbusy
  exact ⟨(step_write rfl s v rest).trans (hostWrite_cmd_idle hidle v),
    (step_write rfl s v rest).trans (hostWrite_arg0_idle hidle v),
    (step_write rfl s v rest).trans (hostWrite_arg1_idle hidle v),
    (step_write rfl s v rest).trans (hostWrite_status v _),
    (step_write rfl s v rest).trans (hostWrite_resLo v _),
    (step_write rfl s v rest).trans (hostWrite_resHi v _)⟩

end Sys2Proof.Machine

/-! SUPPORT. How a command ends, and the failure flags over commands and events (60_exceptions.md rules R122, R124,
R125, R127, R129). -/

namespace Sys2Proof.Machine

/-! ### The status a success leaves -/

/-- The status a successful command leaves: seeding makes the mode READY (rule R62), CLRERR clears the sticky flags
(rule R110), and every success ends with `FAIL` and `BUSY` 0 (rule R55). -/
def Status.afterSuccess (i : Instr) (st : Status) : Status :=
  match i with
  | .seed | .seedt => st.ready.succeeded
  | .clrerr => st.stickyCleared.succeeded
  | .raw | .next | .sample | .range | .fill => st.succeeded

@[simp] theorem Status.afterSuccess_fail (i : Instr) (st : Status) : (st.afterSuccess i).fail = false := by
  cases i <;> rfl

theorem Status.afterSuccess_clrerr (st : Status) :
    st.afterSuccess .clrerr =
      { st with fail := false, busy := false, eIllcmd := false, eUnseeded := false, eRange := false } := rfl

/-- CLRERR is the only command whose success touches a sticky flag. -/
theorem Status.afterSuccess_sticky {i : Instr} (hi : i ≠ .clrerr) (st : Status) :
    (st.afterSuccess i).eIllcmd = st.eIllcmd ∧ (st.afterSuccess i).eUnseeded = st.eUnseeded ∧
      (st.afterSuccess i).eRange = st.eRange := by
  cases i with
  | clrerr => contradiction
  | seed | seedt | raw | next | sample | range | fill => exact ⟨rfl, rfl, rfl⟩

/-- A failure leaves the sticky flag of its cause set. -/
theorem Status.failed_has_sticky (c : Cause) (st : Status) :
    (st.failed c).eIllcmd = true ∨ (st.failed c).eUnseeded = true ∨ (st.failed c).eRange = true := by
  cases c <;> simp

/-! ### Which commands succeed -/

/-- SEED, SEEDT and CLRERR succeed in every state. -/
theorem exec_not_draw_succeeds {i : Instr} (hi : isDraw i = false) (s : State) :
    ∃ t : State, exec i s = .next t ∧ t.status = s.status.afterSuccess i := by
  cases i with
  | seed | clrerr => exact ⟨_, rfl, rfl⟩
  | seedt => exact ⟨_, rfl, by simp [Status.afterSuccess]⟩
  | raw | next | sample | range | fill => cases hi

/-- In READY a draw command succeeds, RANGE if its operands are in order. -/
theorem exec_draw_ready_succeeds {i : Instr} {s : State} {g : Generator} (hi : isDraw i = true)
    (h : s.status.rdy = true) (hg : s.gen = some g) (horder : i = .range → s.arg0.toInt ≤ s.arg1.toInt) :
    ∃ t : State, exec i s = .next t ∧ t.status = s.status.afterSuccess i := by
  cases i with
  | seed | seedt | clrerr => cases hi
  | raw => exact ⟨_, exec_raw_ready h hg, rfl⟩
  | next => exact ⟨_, exec_next_ready h hg, rfl⟩
  | sample => exact ⟨_, exec_sample_ready h hg, rfl⟩
  | range => exact ⟨_, exec_range_ready h hg (horder rfl), rfl⟩
  | fill => exact ⟨_, exec_fill_ready h hg, rfl⟩

/-- A draw command that answers a next state in READY found a generator. -/
theorem exec_draw_next_exists_gen {i : Instr} {s t : State} (hi : isDraw i = true) (hr : s.status.rdy = true)
    (h : exec i s = .next t) : ∃ g, s.gen = some g := by
  cases i with
  | seed | seedt | clrerr => cases hi
  | raw | next | sample | range | fill =>
    rcases drawCommand_next_cases h with ⟨hr', -⟩ | ⟨g, -, hg, -⟩
    · simp [hr] at hr'
    · exact ⟨g, hg⟩

/-! ### How a command ends -/

/-- The three ends of a command that answers a next state, with the condition of each: Unseeded, RangeOrder, or
success (rules R122, R123, R125). -/
theorem exec_next_cases {i : Instr} {s t : State} (h : exec i s = .next t) :
    (isDraw i = true ∧ s.status.rdy = false ∧ t = s.raise .unseeded) ∨
    (i = .range ∧ s.status.rdy = true ∧ s.arg1.toInt < s.arg0.toInt ∧ t = s.raise .rangeOrder) ∨
    ((isDraw i = true → s.status.rdy = true) ∧ (i = .range → s.arg0.toInt ≤ s.arg1.toInt) ∧
      t.status = s.status.afterSuccess i) := by
  have end_eq {u : State} (hu : exec i s = .next u) : t = u := by simpa [h] using hu
  cases hi : isDraw i with
  | false =>
    obtain ⟨u, hu, hst⟩ := exec_not_draw_succeeds hi s
    obtain rfl := end_eq hu
    refine .inr (.inr ⟨by simp, ?_, hst⟩)
    rintro rfl
    cases hi
  | true =>
    cases hr : s.status.rdy with
    | false => exact .inl ⟨rfl, rfl, end_eq (exec_draw_unseeded hi hr)⟩
    | true =>
      obtain ⟨g, hg⟩ := exec_draw_next_exists_gen hi hr h
      by_cases horder : i = .range → s.arg0.toInt ≤ s.arg1.toInt
      · obtain ⟨u, hu, hst⟩ := exec_draw_ready_succeeds hi hr hg horder
        obtain rfl := end_eq hu
        exact .inr (.inr ⟨fun _ => rfl, horder, hst⟩)
      · obtain ⟨rfl, hlt⟩ := Classical.not_imp.1 horder
        rw [not_le] at hlt
        exact .inr (.inl ⟨rfl, rfl, hlt, end_eq (exec_range_order_fails hr hg hlt)⟩)

/-- A command word fails by `State.raise` alone and is then not CLRERR's, or its command succeeds. -/
theorem runCommand_next_failed_or_succeeded {w : Word} {s t : State} (h : runCommand w s = .next t) :
    (commandOf w ≠ some .clrerr ∧ ∃ c, t = s.raise c) ∨
    (∃ i, commandOf w = some i ∧ t.status = s.status.afterSuccess i) := by
  rcases runCommand_next_cases h with ⟨i, hd, hx⟩ | ⟨why, hd, ht⟩
  · rw [commandOf_command hd]
    rcases exec_next_cases hx with ⟨hi, -, ht⟩ | ⟨rfl, -, -, ht⟩ | ⟨-, -, hst⟩
    · have hnot : i ≠ .clrerr := by rintro rfl; cases hi
      exact .inl ⟨by simpa using hnot, _, ht⟩
    · exact .inl ⟨by simp, _, ht⟩
    · exact .inr ⟨i, rfl, hst⟩
  · exact .inl ⟨by simp [commandOf_illegal hd], _, ht⟩

/-- Settles O37: a command that did not succeed ended in `State.raise`, which writes the record of its cause. -/
theorem failedCommandChangesOnlyFlags : Obligations.FailedCommandChangesOnlyFlags := by
  unfold Obligations.FailedCommandChangesOnlyFlags
  intro w s t h hfail
  rcases runCommand_next_failed_or_succeeded h with ⟨-, c, rfl⟩ | ⟨i, -, hst⟩
  · cases c with
    | illegalCommand => exact .inl rfl
    | unseeded => exact .inr (.inl rfl)
    | rangeOrder => exact .inr (.inr rfl)
  · simp [hst] at hfail

/-! ### One cause by priority -/

/-- The independent check of a word agrees with the decoder. -/
theorem wellFormedWord_iff_decode_command (w : Word) :
    wellFormedWord w = true ↔ ∃ i : Instr, decode w = .command i := by
  simp [exists_decode_command_iff, wellFormedWord, zeroFieldClear, opcodeListed]

theorem runCommand_ill_formed {w : Word} (hw : wellFormedWord w = false) (s : State) :
    runCommand w s = .next (s.raise .illegalCommand) := by
  have hnone := mt (wellFormedWord_iff_decode_command w).2 (by simp [hw])
  obtain ⟨why, hd⟩ := exists_decode_illegal_of_no_command hnone
  exact runCommand_illegal hd s

/-- Settles O39: the conditions of the three ends of `exec_next_cases` exclude each other, and an ill-formed word
reaches no command. -/
theorem oneCauseByPriority : Obligations.OneCauseByPriority := by
  unfold Obligations.OneCauseByPriority
  intro w s t h
  have exec_of {i : Instr} (hd : decode w = .command i) : exec i s = .next t :=
    (runCommand_command hd s).symm.trans h
  refine ⟨fun hw => ?_, fun i hd hi hr => ?_, fun hd hr horder => ?_, fun i hd hready horder => ?_⟩
  · exact Host.Outcome.next.inj (h.symm.trans (runCommand_ill_formed hw s))
  · simpa [exec_of hd] using exec_draw_unseeded hi hr
  · rcases exec_next_cases (exec_of hd) with ⟨-, hr', -⟩ | ⟨-, -, -, rfl⟩ | ⟨-, hle, -⟩
    · simp [hr] at hr'
    · rfl
    · exact absurd (hle rfl) (not_le.2 horder)
  · rcases exec_next_cases (exec_of hd) with ⟨hi, hr', -⟩ | ⟨hrange, -, hlt, -⟩ | ⟨-, -, hst⟩
    · simp [hready hi] at hr'
    · exact absurd (horder hrange) (not_le.2 hlt)
    · simp [hst]

/-! ### The flags over every event -/

/-- The status after one event: a failure's record, by a word that is not CLRERR's; a success's; the reset value; or,
where no command completes, the status as it was but for an acceptance. -/
theorem step_event_next_status {s t : State} {e : Event} {rest : List Event} (he : s.events = e :: rest)
    (h : step s = .next t) :
    (e ≠ .reset ∧ commandRun e s ≠ some .clrerr ∧ ∃ c, t.status = s.status.failed c) ∨
    (e ≠ .reset ∧ ∃ i, commandRun e s = some i ∧ t.status = s.status.afterSuccess i) ∨
    (e = .reset ∧ commandRun e s = none ∧ t.status = Status.zero) ∨
    (e ≠ .reset ∧ commandRun e s = none ∧ (t.status = s.status ∨ t.status = s.status.accepted)) := by
  rcases step_event_next_cases he h with ⟨w, f, hw, hrun⟩ | ⟨rfl, rfl⟩ | ⟨hne, hw, -, -, hst⟩
  · have hne : e ≠ .reset := by rintro rfl; cases hw
    have hcmd : commandRun e s = commandOf w := by simp [commandRun, hw]
    rw [hcmd]
    rcases runCommand_next_failed_or_succeeded hrun with ⟨hnot, c, rfl⟩ | hsucc
    · exact .inl ⟨hne, hnot, c, rfl⟩
    · exact .inr (.inl ⟨hne, hsucc⟩)
  · exact .inr (.inr (.inl ⟨rfl, rfl, rfl⟩))
  · exact .inr (.inr (.inr ⟨hne, by simp [commandRun, hw], hst⟩))

/-- Settles O40: a failure sets `FAIL` and only adds a sticky flag, a success clears `FAIL` and only CLRERR's the
sticky flags, a reset clears all, and any other event keeps all. -/
theorem flagsClearedOnlyAsStated : Obligations.FlagsClearedOnlyAsStated := by
  unfold Obligations.FlagsClearedOnlyAsStated
  intro s t e rest he h
  rcases step_event_next_status he h with ⟨hne, hnot, c, hst⟩ | ⟨hne, i, hcmd, hst⟩ | ⟨rfl, hcmd, hst⟩ |
    ⟨hne, hcmd, hst⟩
  · refine ⟨by simp [hst], ?_, fun i _ => .inr (hst ▸ Status.failed_has_sticky c s.status), by simp [hne, hnot]⟩
    rintro (⟨h1, h0⟩ | ⟨h1, h0⟩ | ⟨h1, h0⟩) <;> simp [hst, h1] at h0
  · by_cases hclr : i = .clrerr
    · subst hclr
      simp [hcmd, hst, Status.afterSuccess_clrerr]
    · simp [hcmd, hst, hne, hclr, Status.afterSuccess_sticky hclr]
  · simp [hcmd, hst, Status.zero]
  · rcases hst with hst | hst <;> simp +contextual [hcmd, hst, hne]

/-! ### What raises Unseeded, and what never fails -/

/-- Settles O36: the draw commands' outcome is `exec_draw_unseeded`; of the others CLRERR leaves `E_UNSEEDED` 0 and
the seedings keep it. -/
theorem unseededDrawFails : Obligations.UnseededDrawFails := by
  unfold Obligations.UnseededDrawFails
  refine ⟨fun i s => exec_draw_unseeded, fun i s hi => ?_⟩
  obtain ⟨t, ht, hst⟩ := exec_not_draw_succeeds hi s
  refine ⟨t, ht, by simp [hst], fun hflag => ?_⟩
  by_cases hclr : i = .clrerr
  · simp [hst, hclr, Status.afterSuccess_clrerr] at hflag
  · simpa [hst, Status.afterSuccess_sticky hclr] using hflag

/-- Settles O38: a success leaves `FAIL` 0. -/
theorem whatNeverFails : Obligations.WhatNeverFails := by
  unfold Obligations.WhatNeverFails
  constructor
  · intro i s hi
    obtain ⟨t, ht, hst⟩ := exec_not_draw_succeeds hi s
    exact ⟨t, ht, by simp [hst]⟩
  · intro i s g hi hr hg horder
    obtain ⟨t, ht, hst⟩ := exec_draw_ready_succeeds hi hr hg horder
    exact ⟨t, ht, by simp [hst]⟩

end Sys2Proof.Machine

/-! SUPPORT. The state after reset, and host writes while a command is in progress (70_reset_and_hazards.md rules R141,
R148). -/

namespace Sys2Proof.Machine

/-! ### The state after reset -/

@[simp] theorem statusWord_zero : statusWord Status.zero = 0x00000000#32 := by decide

/-- Settles O49: `STATUS` holds no flag, which `statusWord_zero` reads as the word 0, and the other items are the
fields of `State.reset`. -/
theorem resetStateValues : Obligations.ResetStateValues := by
  unfold Obligations.ResetStateValues
  exact ⟨statusWord_zero, rfl, rfl, rfl, rfl, rfl, rfl, rfl, rfl⟩

/-! ### Host writes while BUSY = 1 -/

/-- The registers that take a host write refuse it while a command is in progress (rule R148). -/
theorem hostWrite_busy {r : HostReg} {s : State} (h : s.status.busy = true)
    (hr : r = .cmd ∨ r = .arg0 ∨ r = .arg1) (v : Word) :
    hostWrite r v s = .refused .writeWhileBusy := by
  rcases hr with rfl | rfl | rfl <;> simp [hostWrite, h]

theorem acceptCommand_busy {s : State} (h : s.status.busy = true) (w : Word) :
    acceptCommand w s = .refused .writeWhileBusy := by
  simp [acceptCommand, h]

/-- A `CMD` write that the host does not wait for is its acceptance. -/
theorem step_accept (s : State) (w : Word) (rest : List Event) :
    step { s with events := .accept w :: rest } = acceptCommand w { s with events := rest } := rfl

/-- Settles O46: each offset is its register's (`step_write`), whose write BUSY = 1 refuses (`hostWrite_busy`), as it
refuses an acceptance (`acceptCommand_busy`). -/
theorem noWritesWhileBusy : Obligations.NoWritesWhileBusy := by
  unfold Obligations.NoWritesWhileBusy
  intro s v rest hbusy
  have hheld : ({ s with events := rest } : State).status.busy = true := hbusy
  exact ⟨(step_write rfl s v rest).trans (hostWrite_busy hheld (by simp) v),
    (step_write rfl s v rest).trans (hostWrite_busy hheld (by simp) v),
    (step_write rfl s v rest).trans (hostWrite_busy hheld (by simp) v),
    (step_accept s v rest).trans (acceptCommand_busy hheld v)⟩

end Sys2Proof.Machine

/-! SUPPORT. Decoding inverts encoding (30_encoding.md rules R45, R47, R49). -/

namespace Sys2Proof.Machine

/-- A word is its two fields, one after the other (rule R45). -/
theorem fieldZERO_append_fieldOPC (w : Word) : fieldZERO w ++ fieldOPC w = w :=
  BitVec.extractLsb'_append_extractLsb'_eq_extractLsb' (by decide) |>.trans BitVec.extractLsb'_eq_self

theorem fieldZERO_encode (i : Instr) : fieldZERO (encode i) = 0 := by
  cases i <;> rfl

theorem fieldOPC_encode (i : Instr) : fieldOPC (encode i) = opcode i := by
  cases i <;> rfl

/-- Settles O2: a command's word is the one word with both fields the command's, and the independent check agrees
with the decoder. -/
theorem decodeInvertsEncode : Obligations.DecodeInvertsEncode := by
  unfold Obligations.DecodeInvertsEncode
  refine fun w => ⟨fun i => ?_, wellFormedWord_iff_decode_command w⟩
  rw [decode_eq_command_iff]
  constructor
  · rintro ⟨hzero, hopc⟩
    rw [← fieldZERO_append_fieldOPC w, hzero, hopc]
    rfl
  · rintro rfl
    exact ⟨fieldZERO_encode i, fieldOPC_encode i⟩

/-- Settles O1: decoding is a function of the word alone, so it computes. -/
theorem opcodeMapWords : Obligations.OpcodeMapWords := by
  unfold Obligations.OpcodeMapWords
  decide

end Sys2Proof.Machine

/-! SUPPORT. What a command answers as an update of the state, its frame, and the invariant (30_encoding.md section 4;
10_state.md section 6). -/

namespace Sys2Proof.Machine

/-! ### The next state of a command -/

/-- The whole next state of a command: a failure's, RangeOrder in READY only; or what its success makes of the state,
a draw's in READY only. The scalar draws differ in what they leave in the result registers. -/
theorem exec_next_update_cases {i : Instr} {s t : State} (h : exec i s = .next t) :
    (∃ c, (c = .rangeOrder → s.status.rdy = true) ∧ t = s.raise c) ∨
    (i = .seed ∧ t = (s.makeReady (seedInit s.arg0)).succeed) ∨
    (i = .seedt ∧ t = (s.afterTimeIn.makeReady (seedInit (seedOfTime s.timeIn))).succeed) ∨
    (i = .clrerr ∧ t = { s with status := s.status.stickyCleared.succeeded }) ∨
    (∃ g, s.status.rdy = true ∧ s.gen = some g ∧
      ((i = .fill ∧ t = ((s.putGenerator (g.extractMany (fillCount (fillLength s))).2).emit
          (fillStream (fillLength s) g)).succeed) ∨
        (isDraw i = true ∧ i ≠ .fill ∧ ∃ lo high,
          t = { (s.putGenerator g.extract.2).succeed with resLo := lo, resHi := high }))) := by
  cases i with
  | seed => cases h; exact .inr (.inl ⟨rfl, rfl⟩)
  | seedt => cases h; exact .inr (.inr (.inl ⟨rfl, rfl⟩))
  | clrerr => cases h; exact .inr (.inr (.inr (.inl ⟨rfl, rfl⟩)))
  | raw | next | sample =>
    rcases drawCommand_next_cases h with ⟨-, ht⟩ | ⟨g, hr, hg, hbody⟩
    · exact .inl ⟨_, by simp, ht⟩
    · cases hbody
      exact .inr (.inr (.inr (.inr ⟨g, hr, hg, .inr ⟨rfl, by decide, _, _, rfl⟩⟩)))
  | range =>
    rcases execRange_next_cases h with ⟨-, ht⟩ | ⟨g, hr, hg, ⟨-, ht⟩ | ⟨-, rfl⟩⟩
    · exact .inl ⟨_, by simp, ht⟩
    · exact .inl ⟨_, fun _ => hr, ht⟩
    · exact .inr (.inr (.inr (.inr ⟨g, hr, hg, .inr ⟨rfl, by decide, _, _, rfl⟩⟩)))
  | fill =>
    rcases execFill_next_cases h with ⟨-, ht⟩ | ⟨g, hr, hg, rfl⟩
    · exact .inl ⟨_, by simp, ht⟩
    · exact .inr (.inr (.inr (.inr ⟨g, hr, hg, .inl ⟨rfl, rfl⟩⟩)))

/-! ### The frame -/

/-- No command writes an operand, the command in progress, the events or the host's record. -/
theorem exec_next_frame {i : Instr} {s t : State} (h : exec i s = .next t) :
    t.arg0 = s.arg0 ∧ t.arg1 = s.arg1 ∧ t.inFlight = s.inFlight ∧ t.events = s.events ∧ t.reads = s.reads := by
  rcases exec_next_update_cases h with ⟨c, -, rfl⟩ | ⟨-, rfl⟩ | ⟨-, rfl⟩ | ⟨-, rfl⟩ |
    ⟨g, -, -, ⟨-, rfl⟩ | ⟨-, -, lo, high, rfl⟩⟩ <;> simp

/-- Only SEEDT reads the time port, and it uses up a held value. -/
theorem exec_next_time {i : Instr} {s t : State} (h : exec i s = .next t) :
    (i ≠ .seedt → t.timeLatch = s.timeLatch ∧ t.timeNext = s.timeNext ∧ t.freeCount = s.freeCount) ∧
    (i = .seedt → t.timeLatch = none) := by
  by_cases hi : i = .seedt
  · subst hi
    cases h
    simp
  · rcases exec_next_update_cases h with ⟨c, -, rfl⟩ | ⟨-, rfl⟩ | ⟨hseedt, -⟩ | ⟨-, rfl⟩ |
      ⟨g, -, -, ⟨-, rfl⟩ | ⟨-, -, lo, high, rfl⟩⟩
    case inr.inr.inl => contradiction
    all_goals simp [hi]

/-- FILL is the only command that emits. -/
theorem exec_next_obytes {i : Instr} {s t : State} (hi : i ≠ .fill) (h : exec i s = .next t) :
    t.obytes = s.obytes := by
  rcases exec_next_update_cases h with ⟨c, -, rfl⟩ | ⟨-, rfl⟩ | ⟨-, rfl⟩ | ⟨-, rfl⟩ |
    ⟨g, -, -, ⟨hfill, -⟩ | ⟨-, -, lo, high, rfl⟩⟩
  case inr.inr.inr.inr.inl => contradiction
  all_goals simp

/-- The result registers are the scalar draws'. -/
theorem exec_next_results {i : Instr} {s t : State} (hi : isDraw i = false ∨ i = .fill) (h : exec i s = .next t) :
    t.resLo = s.resLo ∧ t.resHi = s.resHi := by
  rcases exec_next_update_cases h with ⟨c, -, rfl⟩ | ⟨-, rfl⟩ | ⟨-, rfl⟩ | ⟨-, rfl⟩ |
    ⟨g, -, -, ⟨-, rfl⟩ | ⟨hdraw, hfill, -⟩⟩
  case inr.inr.inr.inr.inr => simp [hdraw, hfill] at hi
  all_goals simp

@[simp] theorem Status.afterSuccess_busy (i : Instr) (st : Status) : (st.afterSuccess i).busy = false := by
  cases i <;> rfl

/-- Every command ends with `BUSY = 0` (rule R55). -/
theorem exec_next_busy {i : Instr} {s t : State} (h : exec i s = .next t) : t.status.busy = false := by
  rcases exec_next_cases h with ⟨-, -, rfl⟩ | ⟨-, -, -, rfl⟩ | ⟨-, -, hst⟩
  · simp
  · simp
  · simp [hst]

/-- A success keeps the sticky flags, but for CLRERR's. -/
theorem exec_next_sticky_of_success {i : Instr} {s t : State} (hi : i ≠ .clrerr) (hok : t.status.fail = false)
    (h : exec i s = .next t) :
    t.status.eIllcmd = s.status.eIllcmd ∧ t.status.eUnseeded = s.status.eUnseeded ∧
      t.status.eRange = s.status.eRange := by
  rcases exec_next_cases h with ⟨-, -, rfl⟩ | ⟨-, -, -, rfl⟩ | ⟨-, -, hst⟩
  · simp at hok
  · simp at hok
  · rw [hst]
    exact Status.afterSuccess_sticky hi s.status

/-- Settles O58: the frame, item by item. -/
theorem commandFrames : Obligations.CommandFrames := by
  unfold Obligations.CommandFrames
  intro i s t h
  obtain ⟨harg0, harg1, hflight, hevents, hreads⟩ := exec_next_frame h
  refine ⟨harg0, harg1, hflight, hevents, hreads, (exec_next_time h).1, fun hi => exec_next_obytes hi h,
    fun hi => exec_next_results ?_ h, ?_, fun hseed hseedt => exec_next_rdy_of_not_seeding hseed hseedt h,
    fun hi hok => exec_next_sticky_of_success hi hok h, exec_next_busy h⟩
  · rcases hi with rfl | rfl | rfl | rfl <;> simp [isDraw]
  · rintro rfl
    cases h
    rfl

/-! ### The invariant -/

/-- The clauses of `Inv` that do not speak of a command in progress. -/
structure Consistent (s : State) : Prop where
  ready_iff_generator : s.status.rdy = s.gen.isSome
  fail_has_cause : s.status.fail = true →
    s.status.eIllcmd = true ∨ s.status.eUnseeded = true ∨ s.status.eRange = true
  unseeded_no_result : s.status.rdy = false → s.resLo = 0 ∧ s.resHi = 0
  range_order_only_ready : s.status.eRange = true → s.status.rdy = true

theorem Inv.consistent {s : State} (h : Inv s) : Consistent s :=
  ⟨h.ready_iff_generator, h.fail_has_cause, h.unseeded_no_result, h.range_order_only_ready⟩

/-- The clauses speak of four items of the state alone. -/
theorem Consistent.of_eq {s t : State} (h : Consistent s) (hgen : t.gen = s.gen) (hst : t.status = s.status)
    (hlo : t.resLo = s.resLo) (hhi : t.resHi = s.resHi) : Consistent t := by
  obtain ⟨hready, hfail, hresult, hrange⟩ := h
  constructor <;> simpa only [hgen, hst, hlo, hhi]

/-- A failure keeps the clauses, RangeOrder in READY. -/
theorem Consistent.raise {s : State} (h : Consistent s) {c : Cause} (hc : c = .rangeOrder → s.status.rdy = true) :
    Consistent (s.raise c) where
  ready_iff_generator := by simpa using h.ready_iff_generator
  fail_has_cause _ := Status.failed_has_sticky c s.status
  unseeded_no_result := by simpa using h.unseeded_no_result
  range_order_only_ready := by
    simp only [State.raise_status, Status.failed_eRange, Status.failed_rdy, Bool.or_eq_true, beq_iff_eq]
    exact Or.rec h.range_order_only_ready hc

/-- A success that ends in READY with a generator keeps the clauses, for none of the others is then left to show. -/
theorem Consistent.of_ready {s : State} (hready : s.status.rdy = true) (hgen : s.gen.isSome = true)
    (hok : s.status.fail = false) : Consistent s := by
  constructor <;> simp [hready, hgen, hok]

theorem Consistent.exec {i : Instr} {s t : State} (hs : Consistent s) (h : exec i s = .next t) : Consistent t := by
  rcases exec_next_update_cases h with ⟨c, hc, rfl⟩ | ⟨-, rfl⟩ | ⟨-, rfl⟩ | ⟨-, rfl⟩ |
    ⟨g, hr, -, ⟨-, rfl⟩ | ⟨-, -, lo, high, rfl⟩⟩
  · exact hs.raise hc
  · exact .of_ready rfl rfl rfl
  · exact .of_ready rfl rfl rfl
  · exact ⟨hs.ready_iff_generator, by simp, hs.unseeded_no_result, by simp⟩
  · exact .of_ready hr rfl rfl
  · exact .of_ready hr rfl rfl

/-- A command word run with no command in progress and no time value held but for SEEDT leaves a state that meets
the invariant. -/
theorem runCommand_next_inv {w : Word} {s t : State} (hs : Consistent s) (hflight : s.inFlight = none)
    (hlatch : s.timeLatch.isSome = true → decode w = .command .seedt) (h : runCommand w s = .next t) : Inv t := by
  have inv_of (ht : Consistent t) (hbusy : t.status.busy = false) (hflight' : t.inFlight = none)
      (hlatch' : t.timeLatch = none) : Inv t :=
    ⟨ht.ready_iff_generator, by simp [hbusy, hflight'], by simp [hlatch'], ht.fail_has_cause,
      ht.unseeded_no_result, ht.range_order_only_ready⟩
  have no_latch (hnot : decode w ≠ .command .seedt) : s.timeLatch = none := by
    simpa using mt hlatch hnot
  rcases runCommand_next_cases h with ⟨i, hd, hx⟩ | ⟨why, hd, rfl⟩
  · obtain ⟨-, -, hflight', -, -⟩ := exec_next_frame hx
    refine inv_of (hs.exec hx) (exec_next_busy hx) (hflight'.trans hflight) ?_
    by_cases hi : i = .seedt
    · exact (exec_next_time hx).2 hi
    · exact ((exec_next_time hx).1 hi).1.trans (no_latch (by simp [hd, hi]))
  · exact inv_of (hs.raise (by simp)) (by simp) hflight (no_latch (by simp [hd]))

/-- An event that leaves the status, the generator, the results and the command in progress leaves the invariant. -/
theorem Inv.of_eq {s t : State} (h : Inv s) (hgen : t.gen = s.gen) (hst : t.status = s.status)
    (hlo : t.resLo = s.resLo) (hhi : t.resHi = s.resHi) (hflight : t.inFlight = s.inFlight)
    (hlatch : t.timeLatch = s.timeLatch) : Inv t := by
  obtain ⟨hready, hfail, hresult, hrange⟩ := h.consistent.of_eq hgen hst hlo hhi
  exact ⟨hready, by simpa only [hst, hflight] using h.busy_iff_in_flight,
    by simpa only [hlatch, hflight] using h.latch_only_for_seedt, hfail, hresult, hrange⟩

/-- Settles O52: nothing is set, held or generated after reset. -/
theorem invariantHoldsAtReset : Obligations.InvariantHoldsAtReset := by
  unfold Obligations.InvariantHoldsAtReset
  constructor <;> simp [State.reset, Status.zero]

theorem resetCore_inv (s : State) : Inv (resetCore s) :=
  Inv.of_eq invariantHoldsAtReset rfl rfl rfl rfl rfl rfl

/-- A core that meets the invariant and is idle holds no command and no time value. -/
theorem Inv.idle {s : State} (h : Inv s) (hbusy : s.status.busy = false) :
    s.inFlight = none ∧ s.timeLatch = none := by
  have hflight : s.inFlight = none := by simpa [hbusy] using h.busy_iff_in_flight
  refine ⟨hflight, ?_⟩
  have hlatch := h.latch_only_for_seedt
  simpa [hflight] using hlatch

theorem acceptCommand_next_inv {w : Word} {s t : State} (hs : Inv s) (h : acceptCommand w s = .next t) : Inv t := by
  obtain ⟨hbusy, ⟨hd, rfl⟩ | ⟨-, rfl⟩⟩ := acceptCommand_next_cases h
  · exact ⟨by simpa using hs.ready_iff_generator, rfl, fun _ => ⟨w, rfl, hd⟩, hs.fail_has_cause,
      by simpa using hs.unseeded_no_result, hs.range_order_only_ready⟩
  · exact ⟨hs.ready_iff_generator, rfl, by simp [(hs.idle hbusy).2], hs.fail_has_cause, hs.unseeded_no_result,
      hs.range_order_only_ready⟩

theorem completeCommand_next_inv {s t : State} (hs : Inv s) (h : completeCommand s = .next t) : Inv t := by
  rcases completeCommand_next_cases h with ⟨-, rfl⟩ | ⟨w, hw, hrun⟩
  · exact hs
  · have htaken : Consistent { s with inFlight := none } := hs.consistent.of_eq rfl rfl rfl rfl
    refine runCommand_next_inv htaken rfl (fun hlatch => ?_) hrun
    obtain ⟨w', hw', hd⟩ := hs.latch_only_for_seedt hlatch
    obtain rfl : w = w' := Option.some.inj (hw.symm.trans hw')
    exact hd

theorem performEvent_next_inv {e : Event} {s t : State} (hs : Inv s) (h : performEvent e s = .next t) : Inv t := by
  rcases performEvent_next_cases h with ⟨off, w, -, -, hbusy, hrun⟩ | ⟨off, v, -, -, -, rfl⟩ |
    ⟨off, v, -, -, -, rfl⟩ | ⟨off, v, r, -, -, -, rfl⟩ | ⟨off, r, -, -, rfl⟩ | ⟨-, rfl⟩ | ⟨v, -, rfl⟩ |
    ⟨w, -, hacc⟩ | ⟨-, hcomp⟩
  · obtain ⟨hflight, hlatch⟩ := hs.idle hbusy
    exact runCommand_next_inv hs.consistent hflight (by simp [hlatch]) hrun
  · exact hs.of_eq rfl rfl rfl rfl rfl rfl
  · exact hs.of_eq rfl rfl rfl rfl rfl rfl
  · exact hs
  · exact hs.of_eq rfl rfl rfl rfl rfl rfl
  · exact resetCore_inv s
  · exact hs.of_eq rfl rfl rfl rfl rfl rfl
  · exact acceptCommand_next_inv hs hacc
  · exact completeCommand_next_inv hs hcomp

/-- Settles O53: the list of events is no part of the invariant, and each event keeps it (`performEvent_next_inv`). -/
theorem everyStepKeepsInvariant : Obligations.EveryStepKeepsInvariant := by
  unfold Obligations.EveryStepKeepsInvariant
  intro s t hs h
  cases he : s.events with
  | nil =>
    rw [step_idle he] at h
    cases h
    exact hs
  | cons e rest =>
    rw [step_event he] at h
    have htaken : Inv { s with events := rest } := hs.of_eq rfl rfl rfl rfl rfl rfl
    exact performEvent_next_inv htaken h

end Sys2Proof.Machine

/-! SUPPORT. The twist pass in closed form and as the source's three loops (41_twist.md rules R71, R72, R73). -/

namespace Sys2Proof.Machine

/-! ### The closed form -/

/-- Bit 0 of the intermediate value is the lower word's, so `MAG` is chosen by that word alone. -/
theorem intermediate_getLsbD_zero (upper lower : Word) :
    (intermediate upper lower).getLsbD 0 = lower.getLsbD 0 := by
  simp [intermediate, upperMask, lowerMask]

theorem mag_bit_zero (y : Word) :
    mag (y.extractLsb' 0 1) = if y.getLsbD 0 then 0x9908B0DF#32 else 0#32 := by
  have hbit : y.extractLsb' 0 1 = BitVec.ofBool (y.getLsbD 0) := by
    ext i hi
    obtain rfl : i = 0 := by omega
    simp
  rw [hbit]
  cases y.getLsbD 0 <;> rfl

theorem twistWord_intermediate (third upper lower : Word) :
    twistWord third (intermediate upper lower) = twistTerm third upper lower := by
  rw [twistWord, mag_bit_zero, intermediate_getLsbD_zero]
  rfl

/-- The new word `i`, from the vector as it is when its turn comes. -/
theorem twist_read (mt : StateVector) (i : Fin 624) :
    (twist mt).read i =
      twistTerm ((twistUpTo i.val mt).read (i + 397)) (mt.read i) ((twistUpTo i.val mt).read (i + 1)) := by
  have hi : Fin.ofNat 624 i.val = i := Fin.ofNat_val_eq_self i
  rw [twist, twistUpTo_read_stable (Nat.le_refl 624) i.isLt (Nat.lt_succ_self i.val), twistUpTo, hi,
    twistStep_read_same, twistWord_intermediate, twistUpTo_read_of_le i.isLt.le (Nat.le_refl i.val)]

/-- In the turn of word `n` a word at or above `n` is still the old one. -/
theorem twistUpTo_read_old {n : Nat} (hn : n ≤ 624) {j k : Fin 624} (hjk : j = k) (h : n ≤ k.val)
    (mt : StateVector) : (twistUpTo n mt).read j = mt.read k := by
  rw [hjk, twistUpTo_read_of_le hn h]

/-- In the turn of word `n` a word below `n` is already the new one. -/
theorem twistUpTo_read_new {n : Nat} (hn : n ≤ 624) {j k : Fin 624} (hjk : j = k) (h : k.val < n)
    (mt : StateVector) : (twistUpTo n mt).read j = (twist mt).read k := by
  rw [hjk, twist, twistUpTo_read_stable (Nat.le_refl 624) hn h]

/-! ### The two indices beside `i`, as the closed form writes them -/

theorem add_one_eq_ofNat (i : Fin 624) : i + 1 = Fin.ofNat 624 (i.val + 1) := Fin.ext rfl

theorem add_397_eq_ofNat (i : Fin 624) : i + 397 = Fin.ofNat 624 (i.val + 397) := Fin.ext rfl

theorem add_397_eq_ofNat_sub {i : Fin 624} (h : 227 ≤ i.val) : i + 397 = Fin.ofNat 624 (i.val - 227) := by
  have hsum : i.val + 397 = i.val - 227 + 624 := by omega
  refine Fin.ext ?_
  rw [add_397_eq_ofNat, Fin.val_ofNat, Fin.val_ofNat, hsum, Nat.add_mod_right]

theorem ofNat_val_of_lt {n : Nat} (h : n < 624) : (Fin.ofNat 624 n).val = n := Nat.mod_eq_of_lt h

/-- Settles O11: of the two words that the turn of word `i` reads beside it, each is old or new as its index is
above or below `i`. -/
theorem twistReadsOldAndNewWords : Obligations.TwistReadsOldAndNewWords := by
  unfold Obligations.TwistReadsOldAndNewWords
  intro mt
  refine ⟨fun i hi => ?_, fun i hl hu => ?_, ?_⟩
  · have hthird : i.val ≤ (Fin.ofNat 624 (i.val + 397)).val := by rw [ofNat_val_of_lt] <;> omega
    have hlower : i.val ≤ (Fin.ofNat 624 (i.val + 1)).val := by rw [ofNat_val_of_lt] <;> omega
    rw [twist_read, twistUpTo_read_old i.isLt.le (add_397_eq_ofNat i) hthird,
      twistUpTo_read_old i.isLt.le (add_one_eq_ofNat i) hlower]
  · have hthird : (Fin.ofNat 624 (i.val - 227)).val < i.val := by rw [ofNat_val_of_lt] <;> omega
    have hlower : i.val ≤ (Fin.ofNat 624 (i.val + 1)).val := by rw [ofNat_val_of_lt] <;> omega
    rw [twist_read, twistUpTo_read_new i.isLt.le (add_397_eq_ofNat_sub hl) hthird,
      twistUpTo_read_old i.isLt.le (add_one_eq_ofNat i) hlower]
  · have hthird : (623 : Fin 624) + 397 = 396 := rfl
    have hlower : (623 : Fin 624) + 1 = 0 := rfl
    rw [twist_read, twistUpTo_read_new (Fin.is_lt 623).le hthird (by decide),
      twistUpTo_read_new (Fin.is_lt 623).le hlower (by decide)]

/-! ### The three-range form -/

/-- With its indices taken modulo 624, the source's assignment is an iteration of the pass. -/
theorem twist3Assign_eq_twistStep {i j k : Fin 624} (hj : j = i + 1) (hk : k = i + 397) (mt : StateVector) :
    twist3Assign i j k mt = twistStep i mt := by
  subst hj hk
  unfold twistStep
  rw [twistWord, mag_bit_zero]
  rfl

/-- A loop whose body is an iteration of the pass carries the pass on. -/
theorem loopFrom_twistUpTo {body : Nat → StateVector → StateVector} {lo n : Nat}
    (hbody : ∀ i, lo ≤ i → i < lo + n → ∀ v, body i v = twistStep (Fin.ofNat 624 i) v) (mt : StateVector) :
    loopFrom body lo n (twistUpTo lo mt) = twistUpTo (lo + n) mt := by
  induction n with
  | zero => rfl
  | succ n ih =>
    rw [loopFrom, ih fun i hl hu => hbody i hl (by omega), hbody (lo + n) (by omega) (by omega)]
    rfl

/-- Settles O12: each of the three ranges carries the pass on from where the one before it stopped. -/
theorem twistEqualsThreeRangeForm : Obligations.TwistEqualsThreeRangeForm := by
  unfold Obligations.TwistEqualsThreeRangeForm
  intro mt
  have hfirst : loopFrom (fun i => twist3Assign (Fin.ofNat 624 i) (Fin.ofNat 624 (i + 1)) (Fin.ofNat 624 (i + 397)))
      0 227 mt = twistUpTo 227 mt := by
    refine loopFrom_twistUpTo (lo := 0) (fun i _ hu => twist3Assign_eq_twistStep ?_ ?_) mt
    · rw [add_one_eq_ofNat, ofNat_val_of_lt (by omega)]
    · rw [add_397_eq_ofNat, ofNat_val_of_lt (by omega)]
  have hsecond : loopFrom (fun i => twist3Assign (Fin.ofNat 624 i) (Fin.ofNat 624 (i + 1)) (Fin.ofNat 624 (i - 227)))
      227 396 (twistUpTo 227 mt) = twistUpTo 623 mt := by
    refine loopFrom_twistUpTo (fun i hl hu => ?_) mt
    have hi : (Fin.ofNat 624 i).val = i := ofNat_val_of_lt (by omega)
    refine twist3Assign_eq_twistStep ?_ ?_
    · rw [add_one_eq_ofNat, hi]
    · rw [add_397_eq_ofNat_sub (by omega), hi]
  have hlast : twist3Assign 623 0 396 (twistUpTo 623 mt) = twistUpTo 624 mt :=
    twist3Assign_eq_twistStep rfl rfl _
  simp only [twist3, hfirst, hsecond, hlast, twist]

end Sys2Proof.Machine

/-! SUPPORT. The raw sequence: which extraction runs the pass, and what it returns; RAW commands and FILLs that walk it
(41_twist.md rule R74; 42_extract.md rules R82, R83, R85, R86; 43_sampling.md rules R105, R106). -/

namespace Sys2Proof.Machine

/-! ### One extraction -/

theorem Generator.extract_mt_of_ne {g : Generator} (h : g.idx.val ≠ 624) : g.extract.2.mt = g.mt := by
  rw [g.extract_of_lt (by omega)]

theorem Generator.extract_mt_of_eq {g : Generator} (h : g.idx.val = 624) : g.extract.2.mt = twist g.mt := by
  rw [g.extract_of_eq h]

theorem Generator.extract_idx_of_ne {g : Generator} (h : g.idx.val ≠ 624) :
    g.extract.2.idx.val = g.idx.val + 1 := by
  rw [g.extract_of_lt (by omega)]

theorem Generator.extract_idx_of_eq {g : Generator} (h : g.idx.val = 624) : g.extract.2.idx.val = 1 := by
  rw [g.extract_of_eq h]
  rfl

/-- The cursor always stands past the word just read. -/
theorem Generator.extract_idx_pos (g : Generator) : 1 ≤ g.extract.2.idx.val := by
  by_cases h : g.idx.val = 624
  · rw [Generator.extract_idx_of_eq h]
  · rw [Generator.extract_idx_of_ne h]
    omega

/-! ### Several extractions -/

/-- The last of `k + 1` extractions. -/
theorem Generator.extractMany_succ_last (k : Nat) (g : Generator) :
    (g.extractMany (k + 1)).1.getLast? = some (g.extractMany k).2.extract.1 ∧
      (g.extractMany (k + 1)).2 = (g.extractMany k).2.extract.2 := by
  rw [Generator.extractMany_add k 1 g]
  simp [Generator.extractMany_succ]

/-- Extractions only ever twist the vector. -/
theorem Generator.extractMany_mt_eq_iterate_twist (n : Nat) (g : Generator) :
    ∃ passes, (g.extractMany n).2.mt = twist^[passes] g.mt := by
  induction n generalizing g with
  | zero => exact ⟨0, rfl⟩
  | succ n ih =>
    obtain ⟨passes, hpasses⟩ := ih g.extract.2
    rw [Generator.extractMany_succ]
    by_cases h : g.idx.val = 624
    · exact ⟨passes + 1, by rw [hpasses, Generator.extract_mt_of_eq h, Function.iterate_succ_apply]⟩
    · exact ⟨passes, by rw [hpasses, Generator.extract_mt_of_ne h]⟩

/-- Extractions that stay within the vector run no pass. -/
theorem Generator.extractMany_within (g : Generator) (n : Nat) (h : g.idx.val + n ≤ 624) :
    (g.extractMany n).2.mt = g.mt ∧ (g.extractMany n).2.idx.val = g.idx.val + n := by
  induction n generalizing g with
  | zero => exact ⟨rfl, rfl⟩
  | succ n ih =>
    have hne : g.idx.val ≠ 624 := by omega
    have hidx := Generator.extract_idx_of_ne hne
    obtain ⟨hmt, hcursor⟩ := ih g.extract.2 (by omega)
    rw [Generator.extractMany_succ]
    exact ⟨hmt.trans (Generator.extract_mt_of_ne hne), by simp only [hcursor, hidx]; omega⟩

/-- Settles O59: a draw command that answered a next state kept the generator or made its extractions. -/
theorem vectorUnchangedWithoutPass : Obligations.VectorUnchangedWithoutPass := by
  unfold Obligations.VectorUnchangedWithoutPass
  refine ⟨Generator.extractMany_within, fun i s t g h hi hg hx ht hwithin => ?_⟩
  rcases exec_draw_next_cases hi hx with ⟨c, rfl⟩ | ⟨-, g', hg', ht'⟩
  · rw [State.raise_gen, hg] at ht
    rw [Option.some.inj ht]
  · obtain rfl : g = g' := Option.some.inj (hg.symm.trans hg')
    obtain rfl := Option.some.inj (ht.symm.trans ht')
    exact (g.extractMany_within _ hwithin).1

/-! ### The sequence from a cursor at the end of the vector -/

/-- Extraction `k + 1` from a cursor at 624: one pass has run for every 624 extractions begun, and the word read is
number `k mod 624`. -/
theorem Generator.extract_after_extractMany {g : Generator} (h : g.idx.val = 624) (k : Nat) :
    (g.extractMany k).2.extract =
      (temper (StateVector.read (twist^[k / 624 + 1] g.mt) (Fin.ofNat 624 k)),
        ⟨twist^[k / 624 + 1] g.mt, ⟨k % 624 + 1, by omega⟩⟩) := by
  induction k with
  | zero => exact g.extract_of_eq h
  | succ k ih =>
    rw [(g.extractMany_succ_last k).2, ih]
    by_cases hend : k % 624 + 1 = 624
    · have hpass : (k + 1) / 624 = k / 624 + 1 := by omega
      have hword : (k + 1) % 624 = 0 := by omega
      have hfin : Fin.ofNat 624 (k + 1) = 0 := Fin.ext hword
      rw [Generator.extract_of_eq _ hend, hfin, ← Function.iterate_succ_apply' twist, hpass]
      simp only [hword]
      rfl
    · have hpass : (k + 1) / 624 = k / 624 := by omega
      have hword : (k + 1) % 624 = k % 624 + 1 := by omega
      have hfin : Fin.ofNat 624 (k + 1) = ⟨k % 624 + 1, by omega⟩ := Fin.ext hword
      rw [Generator.extract_of_lt _ (show k % 624 + 1 < 624 by omega), hfin, hpass]
      simp only [hword]

theorem Generator.extractMany_succ_idx {g : Generator} (h : g.idx.val = 624) (k : Nat) :
    (g.extractMany (k + 1)).2.idx.val = k % 624 + 1 := by
  rw [(g.extractMany_succ_last k).2, Generator.extract_after_extractMany h]

theorem Generator.extractMany_succ_mt {g : Generator} (h : g.idx.val = 624) (k : Nat) :
    (g.extractMany (k + 1)).2.mt = twist^[k / 624 + 1] g.mt := by
  rw [(g.extractMany_succ_last k).2, Generator.extract_after_extractMany h]

/-- Settles O13: an extraction's two cases, and the cursor in closed form from `idx = 624`. -/
theorem passRunsEvery624Extractions : Obligations.PassRunsEvery624Extractions := by
  unfold Obligations.PassRunsEvery624Extractions
  refine ⟨fun g => ⟨Generator.extract_mt_of_ne, Generator.extract_mt_of_eq⟩,
    fun g => ⟨g.extract_idx_pos, by omega⟩, fun seed k hk => ?_⟩
  have hseeded := seedInit_idx seed
  obtain ⟨j, rfl⟩ := Nat.exists_eq_add_of_le' hk
  rw [Nat.add_sub_cancel, Generator.extractMany_succ_idx hseeded]
  refine ⟨?_, rfl⟩
  cases j with
  | zero => simp
  | succ j =>
    rw [Generator.extractMany_succ_idx hseeded]
    omega

/-- Settles O14: the closed form from `idx = 624`, where seeding leaves the cursor. -/
theorem rawSequenceClosedForm : Obligations.RawSequenceClosedForm := by
  unfold Obligations.RawSequenceClosedForm
  intro seed k
  have hseeded := seedInit_idx seed
  refine ⟨Generator.extractMany_succ_mt hseeded k, ?_⟩
  rw [(Generator.extractMany_succ_last k _).1, Generator.extract_after_extractMany hseeded]

/-- The spec's reference sequence, computed (rule R85). -/
theorem extractMany_ten_seedInit_one :
    ((seedInit 1#32).extractMany 10).1 =
      [1791095845#32, 4282876139#32, 3093770124#32, 4005303368#32, 491263#32, 550290313#32, 1298508491#32,
        4290846341#32, 630311759#32, 1013994432#32] := by
  decide +kernel

/-- Settles O18: SEED makes the generator from `ARG0`. -/
theorem referenceSequenceOfSeedOne : Obligations.ReferenceSequenceOfSeedOne := by
  unfold Obligations.ReferenceSequenceOfSeedOne
  intro s hs
  exact ⟨_, seedInit s.arg0, exec_seed s, rfl, hs ▸ extractMany_ten_seedInit_one⟩

/-- Settles O16: `temper_bijective`, and 0 is its own image. -/
theorem temperIsBijective : Obligations.TemperIsBijective := by
  unfold Obligations.TemperIsBijective
  have hzero : temper 0#32 = 0#32 := by decide
  exact ⟨temper_bijective, fun x => ⟨fun h => temper_injective (h.trans hzero.symm), fun h => h ▸ hzero⟩⟩

/-! ### RAW commands one after another -/

/-- In READY `n + 1` RAW commands all complete and make `n + 1` extractions, of which the last is the result. -/
theorem execTimes_raw_succ (n : Nat) {s : State} {g : Generator} (hr : s.status.rdy = true) (hg : s.gen = some g) :
    execTimes .raw (n + 1) s = .next { s with
      gen := some (g.extractMany (n + 1)).2
      resLo := (g.extractMany n).2.extract.1
      resHi := 0x00000000#32
      status := { s.status with fail := false, busy := false } } := by
  induction n generalizing s g with
  | zero =>
    rw [execTimes, exec_raw_ready hr hg]
    rfl
  | succ n ih =>
    rw [execTimes, exec_raw_ready hr hg]
    exact ih (g := g.extract.2) hr rfl

/-- Settles O20: the result is the last word of the extractions. -/
theorem rawCommandsWalkTheSequence : Obligations.RawCommandsWalkTheSequence := by
  unfold Obligations.RawCommandsWalkTheSequence
  intro n s g hr hg
  exact ⟨_, execTimes_raw_succ n hr hg, rfl, (g.extractMany_succ_last n).1.symm, rfl, rfl⟩

/-- So many RAW commands in READY, none among them, make as many extractions. -/
theorem execTimes_raw_gen (n : Nat) {s : State} {g : Generator} (hr : s.status.rdy = true) (hg : s.gen = some g) :
    ∃ u : State, execTimes .raw n s = .next u ∧ u.gen = some (g.extractMany n).2 := by
  cases n with
  | zero => exact ⟨s, rfl, hg⟩
  | succ n => exact ⟨_, execTimes_raw_succ n hr hg, rfl⟩

/-! ### FILL consumes whole words -/

/-- A FILL of two bytes emits the two high bytes of one word. -/
theorem fillStream_two (g : Generator) :
    fillStream 2 g = [⟨g.extract.1.extractLsb' 24 8, false⟩, ⟨g.extract.1.extractLsb' 16 8, true⟩] := rfl

/-- FILL 2's whole effect in READY. -/
theorem exec_fill_two_ready {s : State} {g : Generator} (hr : s.status.rdy = true) (hg : s.gen = some g)
    (hlength : s.arg0 = 2#32) :
    exec .fill s = .next { s with
      gen := some g.extract.2
      obytes := s.obytes ++
        [⟨g.extract.1.extractLsb' 24 8, false⟩, ⟨g.extract.1.extractLsb' 16 8, true⟩]
      status := { s.status with fail := false, busy := false } } := by
  have htwo : s.arg0.toNat = 2 := by rw [hlength]; rfl
  rw [exec_fill_ready hr hg, htwo, fillStream_two]
  rfl

/-- Settles O35: a FILL and the RAW commands make the same extractions; each FILL 2 takes one of its own. -/
theorem fillConsumesWholeWords : Obligations.FillConsumesWholeWords := by
  unfold Obligations.FillConsumesWholeWords
  constructor
  · intro s t g hr hg h
    rw [exec_fill_ready hr hg] at h
    cases h
    rw [← fillCount_eq]
    exact execTimes_raw_gen _ hr hg
  · intro s g hr hg hlength
    refine ⟨_, _, exec_fill_two_ready hr hg hlength,
      exec_fill_two_ready (g := g.extract.2) hr rfl hlength, ?_⟩
    simp

/-- Settles O34: the shift and the mask are quotient and remainder by 4. -/
theorem fillCountIsExact : Obligations.FillCountIsExact := by
  unfold Obligations.FillCountIsExact
  refine ⟨fun length hlength => ?_, by decide⟩
  have hmask : length &&& 3 = length % 4 := Nat.and_two_pow_sub_one_eq_mod length 2
  rw [hmask, Nat.shiftRight_eq_div_pow, fillCount_eq]
  refine ⟨?_, by omega, by omega, by omega⟩
  split <;> omega

end Sys2Proof.Machine

/-! SUPPORT. Rounding to binary64 is to the nearest, ties to even, and what follows for RANGE; the fields of SAMPLE's
pattern (43_sampling.md rules R94, R96, R98, R99). -/

namespace Sys2Proof.Machine

/-! ### Rounding on either side of zero -/

theorem rne53_of_exponent {q : ℚ} {e : Int} (hq : q ≠ 0) (hl : pow2 e ≤ |q|) (hu : |q| < pow2 (e + 1)) :
    rne53 q = (if q < 0 then -1 else 1) * roundHalfEven (|q| / pow2 (e - 52)) * pow2 (e - 52) := by
  simp only [rne53, hq, if_false, floorLog2_unique hl hu]

/-- Settles O26: `e` is the exponent that `rne53` finds, and `roundHalfEven` is the choice between `n` and `n + 1`. -/
theorem roundingIsNearestTiesToEven : Obligations.RoundingIsNearestTiesToEven := by
  unfold Obligations.RoundingIsNearestTiesToEven
  refine ⟨rne53_zero, ?_⟩
  rintro q e hq hl hu k f n rfl rfl rfl
  simp only [← pow2_eq_zpow] at hl hu ⊢
  exact rne53_of_exponent hq hl hu

theorem rne53_of_pos {q : ℚ} (h : 0 < q) :
    rne53 q = roundHalfEven (q / pow2 (floorLog2 q - 52)) * pow2 (floorLog2 q - 52) := by
  simp [rne53, h.ne', abs_of_pos h, not_lt_of_gt h]

theorem rne53_neg_of_pos {q : ℚ} (h : 0 < q) : rne53 (-q) = -rne53 q := by
  rw [rne53_of_pos h]
  simp [rne53, h.ne', abs_of_pos h, h]

/-! ### The significand -/

theorem roundHalfEven_le {k : ℚ} {n : Int} (h : k ≤ n) : roundHalfEven k ≤ n := by
  have hnear := roundHalfEven_nearest k n
  rw [abs_of_nonneg (sub_nonneg.2 h)] at hnear
  have : (roundHalfEven k : ℚ) ≤ n := by linarith [le_abs_self ((roundHalfEven k : ℚ) - k)]
  exact_mod_cast this

theorem le_roundHalfEven {k : ℚ} {n : Int} (h : n ≤ k) : n ≤ roundHalfEven k := by
  have hnear := roundHalfEven_nearest k n
  rw [abs_of_nonpos (sub_nonpos.2 h)] at hnear
  have : (n : ℚ) ≤ roundHalfEven k := by linarith [neg_abs_le ((roundHalfEven k : ℚ) - k)]
  exact_mod_cast this

/-- The significand has at most 53 bits. -/
theorem abs_significand_le {q : ℚ} (h : 0 < q) : |roundHalfEven (q / pow2 (floorLog2 q - 52))| ≤ 2 ^ 53 := by
  have hulp := pow2_pos (floorLog2 q - 52)
  have hnonneg : 0 ≤ roundHalfEven (q / pow2 (floorLog2 q - 52)) :=
    le_roundHalfEven (by simpa using (div_pos h hulp).le)
  have hsplit : pow2 (floorLog2 q + 1) = pow2 53 * pow2 (floorLog2 q - 52) := by
    rw [← pow2_add]
    congr 1
    omega
  rw [abs_of_nonneg hnonneg]
  refine roundHalfEven_le ((div_le_iff₀ hulp).2 ?_)
  exact hsplit ▸ (floorLog2_spec h).2.le

theorem rne53_of_pos_has_significand {q : ℚ} (h : 0 < q) :
    ∃ m e : Int, |m| ≤ 2 ^ 53 ∧ rne53 q = (m : ℚ) * (2 : ℚ) ^ e :=
  ⟨_, floorLog2 q - 52, abs_significand_le h, by rw [← pow2_eq_zpow]; exact rne53_of_pos h⟩

/-! ### Nothing is nearer -/

/-- No whole number of units in the last place is nearer to `q`. -/
theorem rne53_nearest_among_ulps {q : ℚ} (h : 0 < q) (j : Int) :
    |rne53 q - q| ≤ |(j : ℚ) * pow2 (floorLog2 q - 52) - q| := by
  have hulp := pow2_pos (floorLog2 q - 52)
  rw [rne53_of_pos h]
  generalize pow2 (floorLog2 q - 52) = ulp at hulp ⊢
  have distance_eq (x : ℚ) : |x * ulp - q| = |x - q / ulp| * ulp := by
    nth_rw 3 [← abs_of_pos hulp]
    rw [← abs_mul, sub_mul, div_mul_cancel₀ q hulp.ne']
  rw [distance_eq, distance_eq]
  exact mul_le_mul_of_nonneg_right (roundHalfEven_nearest _ j) hulp.le

/-- A whole number of a larger unit is one of a smaller. -/
theorem exists_mul_pow2_eq {a e : Int} (h : a ≤ e) (m : Int) : ∃ j : Int, (m : ℚ) * pow2 e = (j : ℚ) * pow2 a := by
  obtain ⟨d, hd⟩ := Int.eq_ofNat_of_zero_le (Int.sub_nonneg.2 h)
  obtain rfl : e = d + a := by omega
  refine ⟨m * 2 ^ d, ?_⟩
  rw [pow2_add, pow2_eq_zpow d, zpow_natCast]
  push_cast
  ring

theorem mul_pow2_le_of_lt {a e m : Int} (h : e < a) (hm : |m| ≤ 2 ^ 53) :
    (m : ℚ) * pow2 e ≤ ((2 ^ 52 : Int) : ℚ) * pow2 a := by
  have hm' : (m : ℚ) ≤ 2 ^ 53 := by exact_mod_cast (le_abs_self m).trans hm
  have he : pow2 e ≤ pow2 (a - 1) := by
    rw [pow2_eq_zpow, pow2_eq_zpow]
    exact zpow_le_zpow_right₀ (by norm_num) (by omega)
  calc (m : ℚ) * pow2 e ≤ 2 ^ 53 * pow2 (a - 1) := mul_le_mul hm' he (pow2_pos e).le (by positivity)
    _ = ((2 ^ 52 : Int) : ℚ) * pow2 a := by
      rw [← sub_add_cancel a 1, pow2_add, pow2_eq_zpow 1, add_sub_cancel_right]
      push_cast
      ring

/-- The power of 2 below `q`, in units in the last place. -/
theorem two_pow_52_mul_ulp_le {q : ℚ} (h : 0 < q) : ((2 ^ 52 : Int) : ℚ) * pow2 (floorLog2 q - 52) ≤ q := by
  have hsplit : pow2 (floorLog2 q) = pow2 52 * pow2 (floorLog2 q - 52) := by
    rw [← pow2_add]
    congr 1
    omega
  have hpower : ((2 ^ 52 : Int) : ℚ) = pow2 52 := by
    rw [pow2_eq_zpow]
    norm_cast
  rw [hpower, ← hsplit]
  exact (floorLog2_spec h).1

/-- A number with a 53-bit significand is a whole number of units in the last place of `q`, or it is at most the
power of 2 below `q`, which is one. -/
theorem rne53_of_pos_nearest {q : ℚ} (h : 0 < q) {m : Int} (e : Int) (hm : |m| ≤ 2 ^ 53) :
    |rne53 q - q| ≤ |(m : ℚ) * (2 : ℚ) ^ e - q| := by
  rw [← pow2_eq_zpow]
  rcases le_or_gt (floorLog2 q - 52) e with he | he
  · obtain ⟨j, hj⟩ := exists_mul_pow2_eq he m
    rw [hj]
    exact rne53_nearest_among_ulps h j
  · have hbelow := mul_pow2_le_of_lt he hm
    have hpower := two_pow_52_mul_ulp_le h
    calc |rne53 q - q| ≤ |((2 ^ 52 : Int) : ℚ) * pow2 (floorLog2 q - 52) - q| := rne53_nearest_among_ulps h _
      _ ≤ |(m : ℚ) * pow2 e - q| := by
        rw [abs_of_nonpos (by linarith), abs_of_nonpos (by linarith)]
        linarith

/-- Settles O27: for positive `q` it is `rne53_of_pos_nearest`, and rounding is symmetric about 0. -/
theorem roundingIsNearest : Obligations.RoundingIsNearest := by
  unfold Obligations.RoundingIsNearest
  intro q
  rcases lt_trichotomy q 0 with hneg | rfl | hpos
  · obtain ⟨p, rfl⟩ : ∃ p, q = -p := ⟨-q, (neg_neg q).symm⟩
    have hp : 0 < p := by linarith
    obtain ⟨m, e, hm, heq⟩ := rne53_of_pos_has_significand hp
    rw [rne53_neg_of_pos hp]
    refine ⟨⟨-m, e, by rwa [abs_neg], by rw [heq]; push_cast; ring⟩, fun m e hm => ?_⟩
    have hnear := rne53_of_pos_nearest hp e ((abs_neg m).trans_le hm)
    calc |-rne53 p - -p| = |rne53 p - p| := by rw [← abs_neg]; ring_nf
      _ ≤ |((-m : Int) : ℚ) * (2 : ℚ) ^ e - p| := hnear
      _ = |(m : ℚ) * (2 : ℚ) ^ e - -p| := by rw [← abs_neg]; push_cast; ring_nf
  · exact ⟨⟨0, 0, by simp, by simp⟩, fun m e _ => by rw [rne53_zero, sub_self, abs_zero]; exact abs_nonneg _⟩
  · exact ⟨rne53_of_pos_has_significand hpos, fun m e => rne53_of_pos_nearest hpos e⟩

theorem rne53_nearest (q : ℚ) {m : Int} (e : Int) (hm : |m| ≤ 2 ^ 53) :
    |rne53 q - q| ≤ |(m : ℚ) * (2 : ℚ) ^ e - q| := (roundingIsNearest q).2 m e hm

/-! ### What rounding keeps -/

/-- A number that binary64 holds is not changed by rounding. -/
theorem rne53_eq_self {m : Int} (e : Int) (hm : |m| ≤ 2 ^ 53) :
    rne53 ((m : ℚ) * (2 : ℚ) ^ e) = (m : ℚ) * (2 : ℚ) ^ e := by
  have hnear := rne53_nearest ((m : ℚ) * (2 : ℚ) ^ e) e hm
  rw [sub_self, abs_zero] at hnear
  exact sub_eq_zero.1 (abs_nonpos_iff.1 hnear)

/-- Rounding does not pass an integer that binary64 holds. -/
theorem rne53_le_intCast {q : ℚ} {m : Int} (hm : |m| ≤ 2 ^ 53) (h : q ≤ m) : rne53 q ≤ m := by
  have hnear := rne53_nearest q 0 hm
  rw [zpow_zero, mul_one, abs_of_nonneg (sub_nonneg.2 h)] at hnear
  linarith [le_abs_self (rne53 q - q)]

theorem intCast_le_rne53 {q : ℚ} {m : Int} (hm : |m| ≤ 2 ^ 53) (h : m ≤ q) : m ≤ rne53 q := by
  have hnear := rne53_nearest q 0 hm
  rw [zpow_zero, mul_one, abs_of_nonpos (sub_nonpos.2 h)] at hnear
  linarith [neg_abs_le (rne53 q - q)]

/-! ### RANGE's value -/

/-- Rule R98: neither of the two roundings passes an end of the interval. -/
theorem rangeValue_mem {r : Word} {min max : Int} (hl : -2 ^ 31 ≤ min) (hle : min ≤ max) (hu : max < 2 ^ 31) :
    min ≤ rangeValue r min max ∧ rangeValue r min max ≤ max := by
  have hwidth : (0 : ℚ) ≤ ((max - min : Int) : ℚ) := by exact_mod_cast Int.sub_nonneg.2 hle
  have hproduct_nonneg : ((0 : Int) : ℚ) ≤ rne53 (unitDouble r * ((max - min : Int) : ℚ)) :=
    intCast_le_rne53 (by simp) (by simpa using mul_nonneg (unitDouble_nonneg r) hwidth)
  have hproduct_le : rne53 (unitDouble r * ((max - min : Int) : ℚ)) ≤ ((max - min : Int) : ℚ) :=
    rne53_le_intCast (abs_le.2 ⟨by omega, by omega⟩) (mul_le_of_le_one_left hwidth (unitDouble_lt_one r).le)
  push_cast at hproduct_nonneg hproduct_le
  constructor
  · refine Int.le_floor.2 (intCast_le_rne53 (abs_le.2 ⟨by omega, by omega⟩) ?_)
    push_cast
    linarith
  · refine Int.cast_le.1 ((Int.floor_le _).trans (rne53_le_intCast (abs_le.2 ⟨by omega, by omega⟩) ?_))
    push_cast
    linarith

/-- The sum is just below `2^31 - 1` and nearer to it than half a unit in the last place. -/
theorem rangeValue_reaches_max : rangeValue 0xFFFFFFFF#32 2147483646 2147483647 = 2147483647 := by
  decide +kernel

/-- Settles O29: the interval bounds the value, which is then a signed 32-bit one. -/
theorem rangeResultBounds : Obligations.RangeResultBounds := by
  unfold Obligations.RangeResultBounds
  refine ⟨fun r min max hl hle hu => ?_, rangeValue_reaches_max⟩
  obtain ⟨hmin, hmax⟩ := rangeValue_mem (r := r) hl hle hu
  refine ⟨hmin, hmax, ?_, ?_⟩
  · exact BitVec.toInt_ofInt_eq_self (by decide) (by omega) (by omega)
  · rintro rfl
    exact rangeValue_eq_min (abs_lt.2 ⟨by omega, by omega⟩) (by simp)

/-- Rule R99: where both steps are numerators of at most 53 bits over `2^32`, neither rounding changes anything. -/
theorem rangeValue_exact {r : Word} {min max : Int} (hl : -2 ^ 20 ≤ min) (hle : min ≤ max) (hu : max ≤ 2 ^ 20) :
    rangeValue r min max = min + ((r.toNat : Int) * (max - min)) / 2 ^ 32 := by
  have hr : (r.toNat : Int) < 2 ^ 32 := by exact_mod_cast r.isLt
  have hnum_nonneg : 0 ≤ (r.toNat : Int) * (max - min) := mul_nonneg (by omega) (by omega)
  have hnum_le : (r.toNat : Int) * (max - min) ≤ 2 ^ 32 * (max - min) :=
    mul_le_mul_of_nonneg_right hr.le (by omega)
  have hproduct : unitDouble r * ((max - min : Int) : ℚ) =
      ((r.toNat * (max - min) : Int) : ℚ) * (2 : ℚ) ^ (-32 : Int) := by
    rw [unitDouble, pow2_eq_zpow, zpow_neg]
    push_cast
    ring
  have hsum : ((r.toNat * (max - min) : Int) : ℚ) * (2 : ℚ) ^ (-32 : Int) + (min : ℚ) =
      ((r.toNat * (max - min) + min * 2 ^ 32 : Int) : ℚ) * (2 : ℚ) ^ (-32 : Int) := by
    rw [zpow_neg]
    push_cast
    field_simp
  have hfloor (n : Int) : ⌊(n : ℚ) * (2 : ℚ) ^ (-32 : Int)⌋ = n / 2 ^ 32 := by
    rw [zpow_neg, ← div_eq_mul_inv]
    exact_mod_cast Rat.floor_intCast_div_natCast n (2 ^ 32)
  simp only [rangeValue]
  rw [hproduct, rne53_eq_self _ (abs_le.2 ⟨by omega, by omega⟩), hsum,
    rne53_eq_self _ (abs_le.2 ⟨by omega, by omega⟩), hfloor, Int.add_mul_ediv_right _ _ (by norm_num), add_comm]

/-- Settles O30: the exact formula, whose quotient is below `max - min` because `r < 2^32`. -/
theorem rangeExactRegion : Obligations.RangeExactRegion := by
  unfold Obligations.RangeExactRegion
  intro r min max hl hle hu
  refine ⟨rangeValue_exact hl hle hu, fun hlt => ?_⟩
  have hr : (r.toNat : Int) < 2 ^ 32 := by exact_mod_cast r.isLt
  have hquot : ((r.toNat : Int) * (max - min)) / 2 ^ 32 < max - min :=
    Int.ediv_lt_of_lt_mul (by norm_num)
      ((mul_lt_mul_of_pos_right hr (Int.sub_pos.2 hlt)).trans_eq (mul_comm _ _))
  rw [rangeValue_exact hl hle hu]
  omega

/-! ### SAMPLE's bit fields -/

/-- Settles O25: the pattern's fields, of which the fraction is a multiple of `2^21`. -/
theorem sampleBitPacking : Obligations.SampleBitPacking := by
  unfold Obligations.SampleBitPacking
  refine ⟨by simp [unitDouble, f64bits], fun r p hl hu => ?_⟩
  have hp := topBit_le_31 hl
  obtain ⟨hsign, hexp, hfrac⟩ := f64_fields_of_toNat (f64bits_unitDouble_toNat hl hu) (by omega)
    (unitDouble_fraction_lt hl hu)
  obtain ⟨-, -, -, hlow⟩ := f64bits_unitDouble_fields r
  refine ⟨hsign, hexp, hfrac, ?_⟩
  rw [BitVec.extractLsb'_toNat, Nat.shiftRight_zero]
  exact hlow

end Sys2Proof.Machine

/-! SUPPORT. The time port and the seedings (40_seed.md rules R63, R64, R65), and what a written command word runs. -/

namespace Sys2Proof.Machine

/-! ### The time port reads neither the generator nor the status -/

theorem afterTimeIn_with_gen_status (s : State) (x : Option Generator) (st : Status) :
    ({ s with gen := x, status := st } : State).afterTimeIn = { s.afterTimeIn with gen := x, status := st } := by
  unfold State.afterTimeIn
  dsimp only
  split <;> rfl

/-- SEEDT's whole effect, from every state. -/
theorem exec_seedt (s : State) :
    exec .seedt s = .next { s.afterTimeIn with
      gen := some (seedInit (seedOfTime s.timeIn))
      status := { s.status with rdy := true, fail := false, busy := false } } := by
  rw [← State.afterTimeIn_status]
  rfl

/-- SEEDT overwrites the generator, `RDY`, `FAIL` and `BUSY`, so what they held makes no difference. -/
theorem exec_seedt_with_gen_status (s : State) (x : Option Generator) {st : Status}
    (h : { st with rdy := true, fail := false, busy := false } =
      { s.status with rdy := true, fail := false, busy := false }) :
    exec .seedt { s with gen := x, status := st } = exec .seedt s := by
  simp only [exec_seedt, afterTimeIn_with_gen_status, h]
  rfl

/-- Settles O9: each seeding overwrites the generator and `RDY`, and the time port reads neither. -/
theorem reseedForgetsOldGenerator : Obligations.ReseedForgetsOldGenerator := by
  unfold Obligations.ReseedForgetsOldGenerator
  exact fun s g mode => ⟨rfl, exec_seedt_with_gen_status s g rfl⟩

/-- Only the low 32 bits of a time value enter the seed (rule R65). -/
theorem seedOfTime_eq (ticks : Nat) : seedOfTime ticks = BitVec.ofNat 32 (ticks % 2 ^ 32) :=
  BitVec.eq_of_toNat_eq (by simp [seedOfTime])

/-- A driven port gives the driven value, once. -/
theorem timeIn_driven {s : State} {v : Nat} (hlatch : s.timeLatch = none) (hnext : s.timeNext = some v) :
    s.timeIn = v ∧ s.afterTimeIn = { s with timeNext := none } := by
  simp [State.timeIn, State.afterTimeIn, hlatch, hnext]

/-- A port that is not driven gives a free value, a new one each time. -/
theorem timeIn_free {s : State} (hlatch : s.timeLatch = none) (hnext : s.timeNext = none) :
    s.timeIn = Config.timeIn s.freeCount ∧ s.afterTimeIn = { s with freeCount := s.freeCount + 1 } := by
  simp [State.timeIn, State.afterTimeIn, hlatch, hnext]

/-- Settles O8: SEEDT's effect is that of `exec_seedt`, and the port is driven or free. -/
theorem seedtCommand : Obligations.SeedtCommand := by
  unfold Obligations.SeedtCommand
  refine ⟨(decode_eq_command_iff _ _).2 ⟨by decide, by decide⟩, fun s => ⟨_, exec_seedt s, ?_, rfl, ?_⟩⟩
  · rw [seedOfTime_eq]
  · refine ⟨by simp, by simp, by simp, by simp, by simp, by simp, by simp, by simp, fun hlatch v hnext => ?_,
      fun hlatch hnext => ?_, _, exec_seed _, ?_, rfl⟩
    · obtain ⟨hvalue, hafter⟩ := timeIn_driven hlatch hnext
      simp [hvalue, hafter]
    · obtain ⟨hvalue, hafter⟩ := timeIn_free hlatch hnext
      simp [hvalue, hafter]
    · rw [seedOfTime_eq]

/-! ### A word written to `CMD` -/

theorem step_write_cmd {s : State} {w : Word} {rest : List Event} (he : s.events = .write 0x00 w :: rest)
    (hbusy : s.status.busy = false) : step s = runCommand w { s with events := rest } := by
  rw [step_event he]
  exact hostWrite_cmd_idle (s := { s with events := rest }) hbusy w

theorem decode_of_commandOf {w : Word} {i : Instr} (h : commandOf w = some i) : decode w = .command i := by
  unfold commandOf at h
  split at h <;> cases h
  assumption

/-- Settles O4: a write to `CMD` of an idle core runs its word (`step_write_cmd`), and `withFetchWord` makes the core
idle. -/
theorem stepRunsTheDecodedCommand : Obligations.StepRunsTheDecodedCommand := by
  unfold Obligations.StepRunsTheDecodedCommand
  refine ⟨fun s w rest i he hbusy hd => ?_, fun s w rest why he hbusy hd => ?_, fun s => step_idle,
    fun s nbits w i hd => ?_⟩
  · rw [step_write_cmd he hbusy, runCommand_command hd]
  · rw [step_write_cmd he hbusy, runCommand_illegal hd]
    rfl
  · refine (step_write_cmd (presentCommand_events (tableWord nbits w) s) rfl).trans ?_
    rw [runCommand_command (decode_of_commandOf hd)]
    rfl

/-- Settles O10: the `TIME` line drives the port, which SEEDT then reads (`timeIn_driven`). -/
theorem drivenTimeSeedsNextSeedt : Obligations.DrivenTimeSeedsNextSeedt := by
  unfold Obligations.DrivenTimeSeedsNextSeedt
  intro s ticks rest hbusy hlatch
  have hdecode : decode 0x00000002#32 = .command .seedt := (decode_eq_command_iff _ _).2 ⟨by decide, by decide⟩
  have hseedt := step_write_cmd (s := { s with timeNext := some ticks, events := .write 0x00 0x00000002#32 :: rest })
    rfl hbusy
  rw [runCommand_command hdecode, exec_seedt] at hseedt
  refine ⟨_, _, rfl, hseedt, ?_⟩
  obtain ⟨hvalue, hafter⟩ := timeIn_driven (s := { s with timeNext := some ticks, events := rest }) hlatch rfl
  exact ⟨by rw [hvalue]; rfl, rfl, by simp, by rw [hafter]⟩

end Sys2Proof.Machine

/-! SUPPORT. The register space, reads, and the layout of `STATUS` (20_memory.md rules R36, R38; 10_state.md rule R22;
44_control.md rule R113). -/

namespace Sys2Proof.Machine

/-! ### The six offsets -/

theorem hostRegAt_eq_some_iff (off : Nat) (r : HostReg) : hostRegAt off = some r ↔ off = hostRegOffset r := by
  constructor
  · intro h
    unfold hostRegAt at h
    split at h <;> cases h <;> rfl
  · rintro rfl
    cases r <;> rfl

theorem hostRegAt_eq_none_iff (off : Nat) :
    hostRegAt off = none ↔ off ∉ [0x00, 0x04, 0x08, 0x0C, 0x10, 0x14] := by
  unfold hostRegAt
  split <;> simp_all

theorem performEvent_write_no_register {off : Nat} (h : hostRegAt off = none) (v : Word) (s : State) :
    performEvent (.write off v) s = .refused (.noSuchRegister off) := by
  simp [performEvent, h]

theorem performEvent_read_no_register {off : Nat} (h : hostRegAt off = none) (s : State) :
    performEvent (.read off) s = .refused (.noSuchRegister off) := by
  simp [performEvent, h]

/-- Settles O47: an offset outside the six has no register. -/
theorem onlySixOffsetsAnswer : Obligations.OnlySixOffsetsAnswer := by
  unfold Obligations.OnlySixOffsetsAnswer
  refine ⟨fun s off v rest hoff => ?_, hostRegAt_eq_some_iff⟩
  have hnone := (hostRegAt_eq_none_iff off).2 hoff
  rw [step_event rfl, step_event rfl]
  exact ⟨performEvent_write_no_register hnone v _, performEvent_read_no_register hnone _⟩

/-! ### Reads -/

theorem performEvent_read {off : Nat} {r : HostReg} (h : hostRegAt off = some r) (s : State) :
    performEvent (.read off) s = .next (hostRead r s) := by
  simp [performEvent, h]

theorem hostRead_idle {s : State} (h : s.status.busy = false) (r : HostReg) :
    hostRead r s = { s with reads := s.reads ++ [(r, hostReadValue r s)] } := by
  simp [hostRead, h]

/-- The value an idle core's register reads as. -/
theorem hostReadValue_idle {s : State} (h : s.status.busy = false) :
    hostReadValue .status s = statusWord s.status ∧ hostReadValue .resLo s = s.resLo ∧
      hostReadValue .resHi s = s.resHi := by
  simp [hostReadValue, h]

/-- A read of an idle core whose offset is a register's records that register's value. -/
theorem step_read_idle {s : State} {off : Nat} {r : HostReg} {v : Word} (hbusy : s.status.busy = false)
    (hr : hostRegAt off = some r) (rest : List Event) (hv : hostReadValue r s = v) :
    step { s with events := .read off :: rest } =
      .next { s with events := rest, reads := s.reads ++ [(r, v)] } := by
  subst hv
  have hidle : ({ s with events := rest } : State).status.busy = false := hbusy
  rw [step_event rfl, performEvent_read hr, hostRead_idle hidle]
  rfl

theorem busyStatusWord_getLsbD_one (n : Nat) : (busyStatusWord n).getLsbD 1 = true := by
  simp [busyStatusWord]

/-- Settles O44: an idle core's reads register by register, the frame of `hostRead`, and bit 1 of a busy core's
`STATUS`. -/
theorem hostReadRegisters : Obligations.HostReadRegisters := by
  unfold Obligations.HostReadRegisters
  refine ⟨fun s rest hbusy => ?_, fun s t off rest he h => ?_, fun s rest he hbusy => ?_⟩
  · obtain ⟨hstatus, hlo, hhi⟩ := hostReadValue_idle hbusy
    exact ⟨step_read_idle hbusy rfl rest rfl, step_read_idle hbusy rfl rest rfl, step_read_idle hbusy rfl rest rfl,
      step_read_idle hbusy rfl rest hstatus, step_read_idle hbusy rfl rest hlo, step_read_idle hbusy rfl rest hhi⟩
  · rw [step_event he] at h
    cases hr : hostRegAt off with
    | none =>
      rw [performEvent_read_no_register hr] at h
      cases h
    | some r =>
      rw [performEvent_read hr] at h
      cases h
      simp
  · refine ⟨_, _, (step_event he).trans (performEvent_read rfl _), rfl, ?_⟩
    simp [hostReadValue, hbusy, busyStatusWord_getLsbD_one]

/-- Settles O45: the word is a function of six flags, so each of its bits is checked on the 64 values. -/
theorem statusLayout : Obligations.StatusLayout := by
  unfold Obligations.StatusLayout
  rintro ⟨rdy, busy, fail, eIllcmd, eUnseeded, eRange⟩
  revert rdy busy fail eIllcmd eUnseeded eRange
  decide

end Sys2Proof.Machine

/-! SUPPORT. A command held in progress, and a reset that abandons it (10_state.md rules R27, R28;
70_reset_and_hazards.md rule R142). -/

namespace Sys2Proof.Machine

/-! ### Acceptance and completion -/

theorem acceptCommand_idle_seedt {w : Word} {s : State} (hbusy : s.status.busy = false)
    (hd : decode w = .command .seedt) :
    acceptCommand w s = .next { s.afterTimeIn with
      timeLatch := some s.timeIn, status := s.status.accepted, inFlight := some w } := by
  simp [acceptCommand, hbusy, hd]

theorem acceptCommand_idle_other {w : Word} {s : State} (hbusy : s.status.busy = false)
    (hd : decode w ≠ .command .seedt) :
    acceptCommand w s = .next { s with status := s.status.accepted, inFlight := some w } := by
  simp [acceptCommand, hbusy, hd]

theorem completeCommand_idle {s : State} (h : s.inFlight = none) : completeCommand s = .next s := by
  simp [completeCommand, h]

theorem completeCommand_held {s : State} {w : Word} (h : s.inFlight = some w) :
    completeCommand s = runCommand w { s with inFlight := none } := by
  simp [completeCommand, h]

theorem step_complete {t : State} {w : Word} {rest : List Event} (he : t.events = .complete :: rest)
    (hw : t.inFlight = some w) : step t = runCommand w { t with events := rest, inFlight := none } :=
  (step_event he).trans (completeCommand_held hw)

theorem drawCommand_accepted (s : State) {body body' : Generator → Host.Outcome State Fault Refusal}
    (h : ∀ g, body g = body' g) :
    drawCommand { s with status := s.status.accepted } body = drawCommand s body' := by
  obtain rfl : body = body' := funext h
  rfl

/-- Every command ends with `BUSY = 0`, so what `BUSY` was makes no difference to what it answers. -/
theorem exec_accepted (i : Instr) (s : State) : exec i { s with status := s.status.accepted } = exec i s := by
  cases i with
  | seed | clrerr => rfl
  | seedt => exact exec_seedt_with_gen_status s s.gen rfl
  | raw | next | sample | range | fill => exact drawCommand_accepted s fun _ => rfl

theorem runCommand_accepted (w : Word) (s : State) :
    runCommand w { s with status := s.status.accepted } = runCommand w s := by
  cases hd : decode w with
  | command i => simp only [runCommand_command hd, exec_accepted]
  | illegal why => rw [runCommand_illegal hd, runCommand_illegal hd]; rfl

/-- A SEEDT that took its time value at its acceptance ends as one that takes it at its completion. -/
theorem exec_seedt_held {s : State} (hlatch : s.timeLatch = none) (hflight : s.inFlight = none)
    (later rest : List Event) :
    exec .seedt { ({ s with events := later } : State).afterTimeIn with
      timeLatch := some s.timeIn, status := s.status.accepted, events := rest, inFlight := none } =
    exec .seedt { s with events := rest } := by
  rw [exec_seedt, exec_seedt]
  cases hnext : s.timeNext <;> simp [State.timeIn, State.afterTimeIn, hlatch, hflight, hnext]

/-- Settles O48: a held SEEDT has taken its time value, and any other command ends as if `BUSY` had not been set. -/
theorem heldCommandEqualsAtomicCommand : Obligations.HeldCommandEqualsAtomicCommand := by
  unfold Obligations.HeldCommandEqualsAtomicCommand
  intro s w rest hbusy hflight hlatch
  have hatomic := step_write_cmd (s := { s with events := .write 0x00 w :: rest }) rfl hbusy
  have hbusy' : ({ s with events := .complete :: rest } : State).status.busy = false := hbusy
  rw [hatomic, step_accept]
  by_cases hd : decode w = .command .seedt
  · refine ⟨_, acceptCommand_idle_seedt hbusy' hd, rfl, (step_complete (rest := rest) (by simp) rfl).trans ?_⟩
    rw [runCommand_command hd, runCommand_command hd]
    exact exec_seedt_held hlatch hflight (.complete :: rest) rest
  · refine ⟨_, acceptCommand_idle_other hbusy' hd, rfl, (step_complete rfl rfl).trans ?_⟩
    rw [← hflight]
    exact runCommand_accepted w { s with events := rest }

/-! ### The bytes of an abandoned command -/

theorem abandonedBytes_of_no_command {s : State} (h : s.inFlight = none) : abandonedBytes s = [] := by
  simp [abandonedBytes, h]

/-- A byte of an abandoned FILL: its marker is kept or is missing (rule R142). -/
def StreamByte.keepMarkerIf (keep : Bool) (b : StreamByte) : StreamByte := { b with last := b.last && keep }

/-- A reset leaves bytes only of a FILL in progress in READY: some of its first, their markers perhaps missing. -/
theorem abandonedBytes_cases (s : State) :
    abandonedBytes s = [] ∨
    ∃ w g n keep, s.inFlight = some w ∧ decode w = .command .fill ∧ s.status.rdy = true ∧ s.gen = some g ∧
      abandonedBytes s = ((fillStream s.arg0.toNat g).take n).map (StreamByte.keepMarkerIf keep) := by
  unfold abandonedBytes
  split
  · rename_i w g hw hg
    split
    · rename_i h
      exact .inr ⟨w, g, _, _, hw, h.1, h.2, hg, rfl⟩
    · exact .inl rfl
  · exact .inl rfl

/-- Markers aside, what is left is the start of the stream. -/
theorem take_keepMarkerIf_data (full : List StreamByte) (n : Nat) (keep : Bool) :
    ((full.take n).map (StreamByte.keepMarkerIf keep)).map StreamByte.data <+: full.map StreamByte.data := by
  rw [List.map_map]
  exact (List.take_prefix n full).map StreamByte.data

/-- No marker is added. -/
theorem take_keepMarkerIf_last {full : List StreamByte} {n k : Nat} {keep : Bool} {b c : StreamByte}
    (hb : ((full.take n).map (StreamByte.keepMarkerIf keep))[k]? = some b) (hc : full[k]? = some c)
    (hlast : b.last = true) : c.last = true := by
  rw [List.getElem?_map, List.getElem?_take] at hb
  split at hb
  · rw [hc] at hb
    cases hb
    exact (Bool.and_eq_true_iff.1 hlast).1
  · cases hb

theorem step_reset {s : State} {rest : List Event} (he : s.events = .reset :: rest) :
    step s = .next (resetCore { s with events := rest }) := step_event he

/-- Settles O50: the fields of `resetCore`, and no command in progress leaves bytes where there is none. -/
theorem resetInput : Obligations.ResetInput := by
  unfold Obligations.ResetInput
  intro s rest he
  refine ⟨_, step_reset he, rfl, rfl, rfl, rfl, rfl, rfl, rfl, rfl, rfl, fun hflight => ?_⟩
  have hnone : abandonedBytes { s with events := rest } = [] := abandonedBytes_of_no_command hflight
  rw [resetCore_obytes, hnone, List.append_nil]

/-- Settles O51: the bytes are those of `abandonedBytes_cases`, of the stream that the FILL would have emitted. -/
theorem resetAbandonsCommand : Obligations.ResetAbandonsCommand := by
  unfold Obligations.ResetAbandonsCommand
  intro s t rest w he hw h
  rw [step_reset he] at h
  cases h
  refine ⟨abandonedBytes s, rfl, rfl, rfl, rfl, rfl, ?_⟩
  rcases abandonedBytes_cases s with hnone | ⟨w', g, n, keep, hw', hd, hr, hg, hbytes⟩
  · simp [hnone]
  · obtain rfl : w = w' := Option.some.inj (hw.symm.trans hw')
    refine ⟨fun hnot => absurd hd hnot, fun u full _ hu hfull => ?_⟩
    rw [exec_fill_ready hr hg] at hu
    cases hu
    obtain rfl := List.append_cancel_left hfull
    rw [hbytes]
    exact ⟨take_keepMarkerIf_data _ n keep, fun k b c => take_keepMarkerIf_last⟩

end Sys2Proof.Machine

/-! SUPPORT. What every event does to the stream and to the generator, and that it has an outcome (10_state.md
sections 1 and 3; 70_reset_and_hazards.md rule R145). -/

namespace Sys2Proof.Machine

/-! ### The stream -/

/-- A command word appends to the stream, and something only if it is FILL's. -/
theorem runCommand_next_obytes {w : Word} {s t : State} (h : runCommand w s = .next t) :
    ∃ bs, t.obytes = s.obytes ++ bs ∧ (bs ≠ [] → commandOf w = some .fill) := by
  rcases runCommand_next_cases h with ⟨i, hd, hx⟩ | ⟨why, -, rfl⟩
  · by_cases hi : i = .fill
    · subst hi
      rcases execFill_next_cases hx with ⟨-, rfl⟩ | ⟨g, -, -, rfl⟩
      · exact ⟨[], by simp⟩
      · exact ⟨_, rfl, fun _ => commandOf_command hd⟩
    · exact ⟨[], by simp [exec_next_obytes hi hx]⟩
  · exact ⟨[], by simp⟩

/-- Settles O55: a word run is `runCommand_next_obytes`, a reset leaves `abandonedBytes`, and any other event keeps
the stream. -/
theorem byteStreamOnlyGrows : Obligations.ByteStreamOnlyGrows := by
  unfold Obligations.ByteStreamOnlyGrows
  intro s t e rest he h
  rcases step_event_next_cases he h with ⟨w, f, hw, hrun⟩ | ⟨rfl, rfl⟩ | ⟨-, -, -, hobytes, -⟩
  · obtain ⟨bs, hbs, hfill⟩ := runCommand_next_obytes hrun
    exact ⟨bs, hbs, fun hne => .inl (by simp [commandRun, hw, hfill hne])⟩
  · refine ⟨abandonedBytes s, rfl, fun hne => .inr ⟨rfl, ?_⟩⟩
    rcases abandonedBytes_cases s with hnone | ⟨w, g, n, keep, hw, hd, -⟩
    · exact absurd hnone hne
    · exact ⟨w, hw, hd⟩
  · exact ⟨[], by simp [hobytes]⟩

/-! ### The generator -/

/-- A command keeps the generator, or seeds it, or makes extractions, which only twist its vector. -/
theorem exec_next_gen_cases {i : Instr} {s t : State} (h : exec i s = .next t) :
    t.gen = s.gen ∨ ((i = .seed ∨ i = .seedt) ∧ ∃ seed : Word, t.gen = some (seedInit seed)) ∨
    (isDraw i = true ∧ ∃ (g k : Generator) (passes : Nat),
      s.gen = some g ∧ t.gen = some k ∧ k.mt = twist^[passes] g.mt) := by
  cases i with
  | seed => cases h; exact .inr (.inl ⟨.inl rfl, _, rfl⟩)
  | seedt => cases h; exact .inr (.inl ⟨.inr rfl, _, rfl⟩)
  | clrerr => cases h; exact .inl rfl
  | raw | next | sample | range | fill =>
    rcases exec_draw_next_cases rfl h with ⟨c, rfl⟩ | ⟨-, g, hg, ht⟩
    · exact .inl rfl
    · obtain ⟨passes, hpasses⟩ := g.extractMany_mt_eq_iterate_twist _
      exact .inr (.inr ⟨rfl, g, _, passes, hg, ht, hpasses⟩)

/-- Settles O56: a word run is `exec_next_gen_cases`, a reset drops the generator, and any other event keeps it. -/
theorem vectorWrittenOnlyBySeedingAndTwist : Obligations.VectorWrittenOnlyBySeedingAndTwist := by
  unfold Obligations.VectorWrittenOnlyBySeedingAndTwist
  intro s t e rest he h
  rcases step_event_next_cases he h with ⟨w, f, hw, hrun⟩ | ⟨rfl, rfl⟩ | ⟨-, -, hgen, -, -⟩
  · rcases runCommand_next_cases hrun with ⟨i, hd, hx⟩ | ⟨why, -, rfl⟩
    · have hcmd : commandRun e s = some i := by simp [commandRun, hw, commandOf_command hd]
      rcases exec_next_gen_cases hx with hgen | ⟨hi, hseed⟩ | ⟨hi, g, k, passes, hg, hk, hmt⟩
      · exact .inr (.inl hgen)
      · exact .inr (.inr (.inl ⟨by simpa [hcmd] using hi, hseed⟩))
      · exact .inr (.inr (.inr ⟨i, g, k, passes, hcmd, hi, hg, hk, hmt⟩))
    · exact .inr (.inl rfl)
  · exact .inl ⟨rfl, rfl⟩
  · exact .inr (.inl hgen)

/-! ### Every event has an outcome -/

/-- A command answers a next state wherever READY comes with a generator. -/
theorem exec_exists_next {s : State} (h : s.status.rdy = s.gen.isSome) (i : Instr) : ∃ t, exec i s = .next t := by
  cases hi : isDraw i with
  | false => exact (exec_not_draw_succeeds hi s).imp fun _ ht => ht.1
  | true =>
    cases hr : s.status.rdy with
    | false => exact ⟨_, exec_draw_unseeded hi hr⟩
    | true =>
      obtain ⟨g, hg⟩ := Option.isSome_iff_exists.1 (h.symm.trans hr)
      by_cases horder : i = .range → s.arg0.toInt ≤ s.arg1.toInt
      · exact (exec_draw_ready_succeeds hi hr hg horder).imp fun _ ht => ht.1
      · obtain ⟨rfl, hlt⟩ := Classical.not_imp.1 horder
        exact ⟨_, exec_range_order_fails hr hg (not_le.1 hlt)⟩

theorem runCommand_exists_next {s : State} (h : s.status.rdy = s.gen.isSome) (w : Word) :
    ∃ t, runCommand w s = .next t ∧ t.status.busy = false := by
  cases hd : decode w with
  | command i =>
    obtain ⟨t, ht⟩ := exec_exists_next h i
    exact ⟨t, (runCommand_command hd s).trans ht, exec_next_busy ht⟩
  | illegal why => exact ⟨_, runCommand_illegal hd s, by simp⟩

/-- A write to a register answers a next state, or is refused while a command is in progress. -/
theorem hostWrite_outcome {s : State} (h : s.status.rdy = s.gen.isSome) (r : HostReg) (v : Word) :
    (∃ t, hostWrite r v s = .next t) ∨
      (hostWrite r v s = .refused .writeWhileBusy ∧ s.status.busy = true) := by
  cases hbusy : s.status.busy with
  | false =>
    left
    cases r with
    | cmd => exact (runCommand_exists_next h v).imp fun t ht => (hostWrite_cmd_idle hbusy v).trans ht.1
    | arg0 => exact ⟨_, hostWrite_arg0_idle hbusy v⟩
    | arg1 => exact ⟨_, hostWrite_arg1_idle hbusy v⟩
    | status | resLo | resHi => exact ⟨s, rfl⟩
  | true =>
    cases r with
    | cmd | arg0 | arg1 => exact .inr ⟨hostWrite_busy hbusy (by simp) v, rfl⟩
    | status | resLo | resHi => exact .inl ⟨s, rfl⟩

theorem acceptCommand_outcome (w : Word) (s : State) :
    (∃ t, acceptCommand w s = .next t) ∨
      (acceptCommand w s = .refused .writeWhileBusy ∧ s.status.busy = true) := by
  cases hbusy : s.status.busy with
  | true => exact .inr ⟨acceptCommand_busy hbusy w, rfl⟩
  | false =>
    by_cases hd : decode w = .command .seedt
    · exact .inl ⟨_, acceptCommand_idle_seedt hbusy hd⟩
    · exact .inl ⟨_, acceptCommand_idle_other hbusy hd⟩

theorem completeCommand_exists_next {s : State} (h : s.status.rdy = s.gen.isSome) :
    ∃ t, completeCommand s = .next t := by
  cases hw : s.inFlight with
  | none => exact ⟨s, completeCommand_idle hw⟩
  | some w =>
    rw [completeCommand_held hw]
    exact (runCommand_exists_next (s := { s with inFlight := none }) h w).imp fun t ht => ht.1

theorem performEvent_write {off : Nat} {r : HostReg} (h : hostRegAt off = some r) (v : Word) (s : State) :
    performEvent (.write off v) s = hostWrite r v s := by
  simp [performEvent, h]

/-- The outcomes of an event where READY comes with a generator: a next state, or one of the two refusals. -/
theorem performEvent_outcome {s : State} (h : s.status.rdy = s.gen.isSome) (e : Event) :
    (∃ t, performEvent e s = .next t) ∨
    (performEvent e s = .refused .writeWhileBusy ∧ s.status.busy = true) ∨
    (∃ off, performEvent e s = .refused (.noSuchRegister off) ∧ hostRegAt off = none) := by
  cases e with
  | write off v =>
    cases hr : hostRegAt off with
    | none => exact .inr (.inr ⟨off, performEvent_write_no_register hr v s, hr⟩)
    | some r =>
      rw [performEvent_write hr]
      exact (hostWrite_outcome h r v).imp id .inl
  | read off =>
    cases hr : hostRegAt off with
    | none => exact .inr (.inr ⟨off, performEvent_read_no_register hr s, hr⟩)
    | some r => exact .inl ⟨_, performEvent_read hr s⟩
  | reset => exact .inl ⟨_, rfl⟩
  | time ticks => exact .inl ⟨_, rfl⟩
  | accept w => exact (acceptCommand_outcome w s).imp id .inl
  | complete => exact .inl (completeCommand_exists_next h)

theorem step_outcome {s : State} (h : s.status.rdy = s.gen.isSome) :
    (∃ t, step s = .next t) ∨ (step s = .refused .writeWhileBusy ∧ s.status.busy = true) ∨
    (∃ off, step s = .refused (.noSuchRegister off) ∧ hostRegAt off = none) := by
  cases he : s.events with
  | nil => exact .inl ⟨s, step_idle he⟩
  | cons e rest =>
    rw [step_event he]
    exact performEvent_outcome (s := { s with events := rest }) h e

/-- Settles O54: of the invariant only its first clause is needed, that READY comes with a generator. -/
theorem noStateRefusesCommands : Obligations.NoStateRefusesCommands := by
  unfold Obligations.NoStateRefusesCommands
  intro s hs
  have hready := hs.ready_iff_generator
  refine ⟨fun f hf => ?_, fun w _ => runCommand_exists_next hready w, fun r hr => ?_⟩
  · rcases step_outcome hready with ⟨t, ht⟩ | ⟨ht, -⟩ | ⟨off, ht, -⟩ <;> simp [ht] at hf
  · rcases step_outcome hready with ⟨t, ht⟩ | ⟨ht, hbusy⟩ | ⟨off, ht, hoff⟩
    · simp [ht] at hr
    · rw [ht] at hr
      cases hr
      exact .inl ⟨rfl, hbusy⟩
    · rw [ht] at hr
      cases hr
      exact .inr ⟨off, rfl, (hostRegAt_eq_none_iff off).1 hoff⟩

/-! ### The generator is hidden -/

/-- A command that does not draw reads nothing of the generator. -/
theorem exec_not_draw_hides_gen {i : Instr} (hi : isDraw i = false) {s t : State} (x : Option Generator)
    (h : exec i s = .next t) :
    ∃ t', exec i { s with gen := x } = .next t' ∧ { t' with gen := none } = { t with gen := none } := by
  cases i with
  | seed | clrerr => cases h; exact ⟨_, rfl, rfl⟩
  | seedt => exact ⟨t, (exec_seedt_with_gen_status s x rfl).trans h, rfl⟩
  | raw | next | sample | range | fill => cases hi

theorem runCommand_not_draw_hides_gen {w : Word} (hw : ∀ i, commandOf w = some i → isDraw i = false) {s t : State}
    (x : Option Generator) (h : runCommand w s = .next t) :
    ∃ t', runCommand w { s with gen := x } = .next t' ∧ { t' with gen := none } = { t with gen := none } := by
  rcases runCommand_next_cases h with ⟨i, hd, hx⟩ | ⟨why, hd, rfl⟩
  · rw [runCommand_command hd]
    exact exec_not_draw_hides_gen (hw i (commandOf_command hd)) x hx
  · exact ⟨_, runCommand_illegal hd _, rfl⟩

theorem acceptCommand_hides_gen {w : Word} {s t : State} (x : Option Generator) (h : acceptCommand w s = .next t) :
    ∃ t', acceptCommand w { s with gen := x } = .next t' ∧ { t' with gen := none } = { t with gen := none } := by
  obtain ⟨hbusy, ⟨hd, rfl⟩ | ⟨hd, rfl⟩⟩ := acceptCommand_next_cases h
  · refine ⟨_, acceptCommand_idle_seedt hbusy hd, ?_⟩
    have hafter := afterTimeIn_with_gen_status s x s.status
    rw [hafter]
    rfl
  · exact ⟨_, acceptCommand_idle_other hbusy hd, rfl⟩

theorem completeCommand_hides_gen {s t : State} (x : Option Generator) (h : completeCommand s = .next t)
    (hdraw : ∀ w, s.inFlight = some w → ∀ i, commandOf w = some i → isDraw i = false) :
    ∃ t', completeCommand { s with gen := x } = .next t' ∧ { t' with gen := none } = { t with gen := none } := by
  rcases completeCommand_next_cases h with ⟨hnone, rfl⟩ | ⟨w, hw, hrun⟩
  · exact ⟨_, completeCommand_idle hnone, rfl⟩
  · rw [completeCommand_held (s := { s with gen := x }) hw]
    exact runCommand_not_draw_hides_gen (hdraw w hw) x hrun

theorem resetCore_hides_gen {s : State} (h : s.inFlight = none) (x : Option Generator) :
    resetCore { s with gen := x } = resetCore s := by
  have hwith : abandonedBytes { s with gen := x } = [] := abandonedBytes_of_no_command h
  simp [resetCore, hwith, abandonedBytes_of_no_command h]

/-- An event that completes no draw command, nor abandons a command, reads nothing of the generator. -/
theorem performEvent_hides_gen {e : Event} {s t : State} (x : Option Generator) (h : performEvent e s = .next t)
    (hdraw : ∀ i, commandRun e s = some i → isDraw i = false) (hreset : e = .reset → s.inFlight = none) :
    ∃ t', performEvent e { s with gen := x } = .next t' ∧ { t' with gen := none } = { t with gen := none } := by
  rcases performEvent_next_cases h with ⟨off, w, rfl, hoff, hbusy, hrun⟩ | ⟨off, v, rfl, hoff, hbusy, rfl⟩ |
    ⟨off, v, rfl, hoff, hbusy, rfl⟩ | ⟨off, v, r, rfl, hoff, hr, rfl⟩ | ⟨off, r, rfl, hoff, rfl⟩ | ⟨rfl, rfl⟩ |
    ⟨v, rfl, rfl⟩ | ⟨w, rfl, hacc⟩ | ⟨rfl, hcomp⟩
  · rw [performEvent_write hoff, hostWrite_cmd_idle (s := { s with gen := x }) hbusy]
    refine runCommand_not_draw_hides_gen (fun i hi => hdraw i ?_) x hrun
    simpa [commandRun, wordRun, (hostRegAt_eq_cmd_iff off).1 hoff] using hi
  · rw [performEvent_write hoff, hostWrite_arg0_idle (s := { s with gen := x }) hbusy]
    exact ⟨_, rfl, rfl⟩
  · rw [performEvent_write hoff, hostWrite_arg1_idle (s := { s with gen := x }) hbusy]
    exact ⟨_, rfl, rfl⟩
  · rw [performEvent_write hoff]
    rcases hr with rfl | rfl | rfl <;> exact ⟨_, rfl, rfl⟩
  · exact ⟨_, performEvent_read hoff _, rfl⟩
  · exact ⟨_, rfl, by rw [resetCore_hides_gen (hreset rfl)]⟩
  · exact ⟨_, rfl, rfl⟩
  · exact acceptCommand_hides_gen x hacc
  · exact completeCommand_hides_gen x hcomp fun w hw i hi => hdraw i (by simp [commandRun, wordRun, hw, hi])

/-- Settles O57: the event is performed on both states alike (`performEvent_hides_gen`). -/
theorem generatorHiddenFromHost : Obligations.GeneratorHiddenFromHost := by
  unfold Obligations.GeneratorHiddenFromHost
  intro s t g g' e rest he _ h hdraw hreset
  rw [step_event he] at h
  rw [step_event (s := { s with gen := some g' }) he]
  have hdraw' : ∀ i, commandRun e { s with events := rest } = some i → isDraw i = false := by
    cases e <;> exact hdraw
  exact performEvent_hides_gen (some g') h hdraw' hreset

end Sys2Proof.Machine
